-- ==== Sys2Proof/Word.lean ====
section
/-! DEFINITION. The bit vectors at the block's boundary: operands and results (00_scope.md R5), the command word
(30_encoding.md R30) and the response word (30_encoding.md R31). -/

namespace Sys2Proof

/-- An operand or a result: an unsigned number of `XLEN = 32` bits (R5; log entry 8). -/
abbrev Word := BitVec 32

/-- The operation select field `op` (R30, R32). -/
abbrev OpCode := BitVec 2

/-- The cause field of a response (R31, R70). -/
abbrev CauseCode := BitVec 2

/-- The command word `cmd`, the 66 wires of the input port (R30). -/
abbrev CmdWord := BitVec 66

/-- The response word `rsp`, the 34 wires of the output port (R31). -/
abbrev RspWord := BitVec 34

end Sys2Proof
end

