-- ==== Sys2Proof/Syntax.lean ====
section
/-! DEFINITION. The three instructions of the opcode table, and the lines of the spec's assembler. -/

namespace Sys2Proof

/-- The instructions of spec/opcode_table.json, one constructor per row (30_encoding.md R32). `a` is `cmd[31:0]` and
`b` is `cmd[63:32]` (R30). An operand is any 32-bit pattern (10_state.md R18), so every term is well-formed. -/
inductive Instr where
  /-- `A2P`, angle to pulse width (R40). `b` is carried because the word has it; the operation ignores it (R33; log
  entry 10). -/
  | a2p (a b : Word)
  /-- `A2D`, angle `a` to duty value at resolution `b` (R50). -/
  | a2d (a b : Word)
  /-- `D2A`, duty value `a` to angle at resolution `b` (R60). -/
  | d2a (a b : Word)
deriving DecidableEq, Repr

/-- One line of the spec's assembler (R36), its literals as they are written: a literal may be out of range or
negative, and the assembler then refuses the line. `A2P` is written with one operand. -/
inductive AsmLine where
  | a2p (a : Int)
  | a2d (a b : Int)
  | d2a (a b : Int)
deriving DecidableEq, Repr

end Sys2Proof
end

