-- ==== Sys2Proof/Decode.lean ====
section
/-! DEFINITION. The fields of the command word, the decoder (total on 66-bit words, refusing the reserved op code by
name) and the encoder (30_encoding.md R30, R32, R34, R35). -/

namespace Sys2Proof

/-- Why a command word decodes to no instruction. -/
inductive DecodeError where
  /-- `op == 0b11`, the reserved encoding (R34). -/
  | reservedOp
deriving DecidableEq, Repr

/-- `cmd.op = cmd[65:64]` (R30). -/
def cmdOp (w : CmdWord) : OpCode := w.extractLsb' 64 2

/-- `cmd.b = cmd[63:32]` (R30). -/
def cmdB (w : CmdWord) : Word := w.extractLsb' 32 32

/-- `cmd.a = cmd[31:0]` (R30). -/
def cmdA (w : CmdWord) : Word := w.extractLsb' 0 32

/-- `cmd = {op, b, a}` (R30). -/
def cmdPack (op : OpCode) (b a : Word) : CmdWord := op ++ b ++ a

/-- The instruction of a command word: `op` selects it (R32), both operand fields are taken whole (R33), and op code
3 is reserved (R34). -/
def decode (w : CmdWord) : Except DecodeError Instr :=
  match (cmdOp w).toNat with
  | 0 => .ok (.a2p (cmdA w) (cmdB w))
  | 1 => .ok (.a2d (cmdA w) (cmdB w))
  | 2 => .ok (.d2a (cmdA w) (cmdB w))
  | _ => .error .reservedOp

/-- The command word of an instruction (R30, R32). -/
def encode : Instr → CmdWord
  | .a2p a b => cmdPack 0 b a
  | .a2d a b => cmdPack 1 b a
  | .d2a a b => cmdPack 2 b a

/-- The command word whose bits are `w`, of which `nbits` bits are given and the rest are 0. The port has 66 wires
and no byte order (R30; 20_memory.md R21), so a number with a bit above bit 65 is no command word (log entry 12). -/
def tableWord (nbits w : Nat) : Option CmdWord :=
  if w % 2 ^ nbits < 2 ^ 66 then some (BitVec.ofNat 66 (w % 2 ^ nbits)) else none

/-- The instruction that the decoder reads from the bits `w`, numbered as spec/opcode_table.json numbers them. -/
def decodeTableWord (nbits w : Nat) : Option Instr :=
  match tableWord nbits w with
  | none => none
  | some c =>
    match decode c with
    | .ok i => some i
    | .error _ => none

end Sys2Proof
end

