-- ==== Sys2Proof/Machine/Flags.lean ====
section
/-! DEFINITION. The block has no flags (10_state.md R13). The one status it gives is the cause of a response
(60_exceptions.md R70). -/

namespace Sys2Proof.Machine

open Sys2Proof

/-- The causes of R70. Code 3 is reserved and never produced, so it has no constructor
(93_implementation_defined.md U3). -/
inductive Cause where
  /-- The operation's rule gave a result. -/
  | ok
  /-- `op == 3` (R72). -/
  | illegalOp
  /-- `D2A` with `b == 0` (R73). -/
  | divZero
deriving DecidableEq, Repr

/-- The code of a cause (R70). -/
def causeCode : Cause → CauseCode
  | .ok => 0
  | .illegalOp => 1
  | .divZero => 2

/-- The cause a code stands for; `none` for code 3, which is not a response of this block (R70). -/
def causeOfCode (c : CauseCode) : Option Cause :=
  match c.toNat with
  | 0 => some .ok
  | 1 => some .illegalOp
  | 2 => some .divZero
  | _ => none

end Sys2Proof.Machine
end

