-- ==== Sys2Proof/Config.lean ====
section
/-! DEFINITION. What is fixed for this hardware: the hardwired constants (00_scope.md R3, R4), and the free values the
spec leaves open (60_exceptions.md R71; 93_implementation_defined.md U1, U2, U4). -/

namespace Sys2Proof.Config

/-- `MIN_PULSE_US`, microseconds (R3). -/
def minPulseUs : Nat := 500

/-- `MAX_PULSE_US`, microseconds (R3). -/
def maxPulseUs : Nat := 2500

/-- `PERIOD_US`, microseconds (R3). -/
def periodUs : Nat := 20000

/-- `ANGLE_MAX`, degrees: the upper clamp bound of an angle (R4). -/
def angleMax : Nat := 180

/-- `SPAN_US = MAX_PULSE_US - MIN_PULSE_US` (R4). -/
def spanUs : Nat := maxPulseUs - minPulseUs

/-- `any_XLEN()` (00_scope.md section 6, R71): the value of draw number `n`. It has no body, so nothing can be
proved of it. DESIGN CHOICE, log entry 3: unsafe for a claim that compares two draws of equal number. -/
opaque anyXlen : Nat → Word

/-- What the response port shows while no command word has settled (R80, R82; U4), at draw number `n`. It has no
body: all 34 wires are unspecified. DESIGN CHOICE, log entry 4. -/
opaque unsettledRsp : Nat → RspWord

end Sys2Proof.Config
end

