-- ==== Sys2Proof/Machine/Operands.lean ====
section
/-! DEFINITION. The operand values, the fields of the response word (30_encoding.md R31, R33), and the clamping and
saturating primitives of 00_scope.md section 6. -/

namespace Sys2Proof.Machine

open Sys2Proof

/-- The value of an operand: the unsigned number its 32 bits spell, with no extension, scaling, shift or offset
(R33). -/
def operandValue (x : Word) : Nat := x.toNat

/-- `rsp = {cause, y}` (R31). -/
def rspPack (cause : CauseCode) (y : Word) : RspWord := cause ++ y

/-- `rsp.cause = rsp[33:32]` (R31). -/
def rspCause (r : RspWord) : CauseCode := r.extractLsb' 32 2

/-- `rsp.y = rsp[31:0]` (R31). -/
def rspY (r : RspWord) : Word := r.extractLsb' 0 32

/-- `zext_32` of a result (R31): the number is unchanged where it is below `2^32`, and every result of the rules
is. -/
def zext32 (v : Nat) : Word := BitVec.ofNat 32 v

/-- `clamp180` (R9). -/
def clamp180 (v : Nat) : Nat := min v Config.angleMax

/-- `satsub`: the difference, or 0 when it would be negative (R9; 42_duty_to_angle.md R61). -/
def satsub (u v : Nat) : Nat := if v ≤ u then u - v else 0

end Sys2Proof.Machine
end

