-- ==== Sys2Proof/Machine/State.lean ====
section
/-! DEFINITION. The state, the reasons a step could stop, and the state after reset. The block itself has no state
(10_state.md R10): the fields are its two ports and the model's counter of free values. -/

namespace Sys2Proof.Machine

open Sys2Proof

/-- The ports of the block as the host sees them, and the model's own draw counter. Nothing else: registers, program
counter, flags, control registers, memory and hidden state are absent by rule (10_state.md R11 to R17). -/
structure State where
  /-- The command port (30_encoding.md R30). `some w`: the host drives `w`, stable for at least `T_PD`. `none`: no
  command word has settled on the port (undriven, changing or too young; 93_implementation_defined.md U4). The wires
  are the host's, not state of the block (log entry 1). -/
  cmd : Option CmdWord
  /-- The response port (R31), as it stood when it was last looked at (log entry 2). -/
  rsp : RspWord
  /-- The MODEL's own count of the free values drawn so far: `any_XLEN()` is drawn afresh at every evaluation (R71;
  log entry 3). -/
  draws : Nat
deriving DecidableEq, Repr

/-- Why the machine stops with a fault: it never does. A fault of this hardware is a field of one response, after
which the next transaction is served (R71), and no behaviour of the spec is treated as stuck
(93_implementation_defined.md section 2). The type has no constructor; log entry 14. Safe. -/
inductive Fault
deriving DecidableEq, Repr

/-- Why an instruction has no meaning. -/
inductive Refusal where
  /-- An arm of `exec` not modelled yet, by mnemonic. Raised by nobody: all three arms have their meaning. Safe. -/
  | notModelled (mnemonic : String)
deriving DecidableEq, Repr

/-- What a step answers. -/
abbrev Result := Host.Outcome State Fault Refusal

/-- The machine right after reset. There is no state and so no reset value (10_state.md R19; 70_reset_and_hazards.md
R80). Nothing has settled on the command port, the response port is unspecified (U4: a free value), and one draw has
been used for it. DESIGN CHOICE, log entry 5. -/
def State.reset : State :=
  { cmd := none, rsp := Config.unsettledRsp 0, draws := 1 }

end Sys2Proof.Machine
end

