-- ==== Sys2Proof/Machine/Ops.lean ====
section
/-! DEFINITION. The operations on the ports that every instruction shares: giving a result, raising a fault, and what
the response port shows while no command word has settled. There is no return from a fault (60_exceptions.md R77),
no register file and no memory, and so no operation over them (10_state.md R11, R16). -/

namespace Sys2Proof.Machine

open Sys2Proof

/-- `rsp.y <- y; rsp.cause <- 0`: the response of an operation whose rule gave the result `y` (R31, R70). -/
def State.respond (y : Nat) (s : State) : State :=
  { s with rsp := rspPack (causeCode .ok) (zext32 y) }

/-- `raise c` (R71): the response carries the code of `c` and an unspecified `y`, drawn afresh. Nothing is saved, no
control moves, nothing is remembered. -/
def State.raise (c : Cause) (s : State) : State :=
  { s with rsp := rspPack (causeCode c) (Config.anyXlen s.draws), draws := s.draws + 1 }

/-- The response port while no command word has settled shows any value (R80, R82; U4; log entry 4). -/
def State.unsettle (s : State) : State :=
  { s with rsp := Config.unsettledRsp s.draws, draws := s.draws + 1 }

/-- The host presents all 66 bits of the command word `w` and holds them (R82). Until the response has settled, the
response port is unspecified. -/
def State.present (w : CmdWord) (s : State) : State :=
  { s.unsettle with cmd := some w }

/-- The host stops driving the command port (U4). -/
def State.release (s : State) : State :=
  { s.unsettle with cmd := none }

end Sys2Proof.Machine
end

