-- ==== Sys2Proof/Machine/AngleToPulse.lean ====
section
/-! DEFINITION. `A2P`, the affine scaler (40_angle_to_pulse.md). -/

namespace Sys2Proof.Machine

open Sys2Proof

/-- `angle_to_pulse` (R40): clamp first (R41), multiply before dividing (00_scope.md R8), add last. -/
def a2p (angle : Nat) : Nat :=
  Config.minPulseUs + clamp180 angle * Config.spanUs / Config.angleMax

/-- `A2P a` (R40): no fault for any operands, and `b` is ignored (R33). -/
def execA2p (a _b : Word) (s : State) : Result :=
  .next (s.respond (a2p (operandValue a)))

end Sys2Proof.Machine
end

