-- ==== Sys2Proof/Machine/AngleToDuty.lean ====
section
/-! DEFINITION. `A2D`, the chained multiplier-divider with saturation (41_angle_to_duty.md). -/

namespace Sys2Proof.Machine

open Sys2Proof

/-- `angle_to_duty` (R50): the second stage works on the truncated pulse width (R55), and the final saturation is
kept (R51). -/
def a2d (angle maxDuty : Nat) : Nat :=
  min (a2p angle * maxDuty / Config.periodUs) maxDuty

/-- `A2D a, b` (R50): no fault for any operands, `b = 0` among them (R54). -/
def execA2d (a b : Word) (s : State) : Result :=
  .next (s.respond (a2d (operandValue a) (operandValue b)))

end Sys2Proof.Machine
end

