-- ==== Sys2Proof/Machine/DutyToAngle.lean ====
section
/-! DEFINITION. `D2A`, the inverse converter (42_duty_to_angle.md). -/

namespace Sys2Proof.Machine

open Sys2Proof

/-- The second stage of `D2A`: from a truncated pulse width to an angle, saturating below 500 (R61) and clamping the
quotient last (R63). It is not separately invocable (91_not_in_source.md N14). -/
def pulseToAngle (pulseUs : Nat) : Nat :=
  clamp180 (satsub pulseUs Config.minPulseUs * Config.angleMax / Config.spanUs)

/-- `duty_to_angle` for `maxDuty > 0` (R60). -/
def d2a (duty maxDuty : Nat) : Nat :=
  pulseToAngle (duty * Config.periodUs / maxDuty)

/-- `D2A a, b` (R60): the check is on `b` alone and comes before any arithmetic (R62). -/
def execD2a (a b : Word) (s : State) : Result :=
  if operandValue b = 0 then .next (s.raise .divZero)
  else .next (s.respond (d2a (operandValue a) (operandValue b)))

end Sys2Proof.Machine
end

