-- ==== Sys2Proof/Machine/Dispatch.lean ====
section
/-! DEFINITION. One arm per instruction of the opcode table. -/

namespace Sys2Proof.Machine

open Sys2Proof

/-- The meaning of each instruction. -/
def exec (i : Instr) (s : State) : Host.Outcome State Fault Refusal :=
  match i with
  | .a2p a b => Sys2Proof.Machine.execA2p a b s
  | .a2d a b => Sys2Proof.Machine.execA2d a b s
  | .d2a a b => Sys2Proof.Machine.execD2a a b s

end Sys2Proof.Machine
end

