-- ==== Sys2Proof/Machine/Serve.lean ====
section
/-! DEFINITION. What the block does with a settled command word: the decode order of 60_exceptions.md R75. -/

namespace Sys2Proof.Machine

open Sys2Proof

/-- The response to the reserved encoding `op == 3`: `ILLEGAL_OP`, no conversion (30_encoding.md R34;
60_exceptions.md R72; log entry 9). -/
def serveReserved (s : State) : Result :=
  .next (s.raise .illegalOp)

/-- The response to the settled command word `w` (R30): first `op` (reserved gives `ILLEGAL_OP`), then the
operation it selects (R75). -/
def serve (w : CmdWord) (s : State) : Result :=
  match decode w with
  | .ok i => exec i s
  | .error .reservedOp => serveReserved s

/-- No command word has settled: there is no transaction, and the response port shows any value (R80, U4; log
entry 4). -/
def serveUnsettled (s : State) : Result :=
  .next s.unsettle

end Sys2Proof.Machine
end

