-- ==== Sys2Proof/Machine/Step.lean ====
section
/-! DEFINITION. One step: the response port takes the response to the command word on the command port. The block
fetches nothing and has no program counter (10_state.md R12). -/

namespace Sys2Proof.Machine

open Sys2Proof

/-- One transaction, atomic and without time (20_memory.md R23; 70_reset_and_hazards.md R87): the command port is
read and left as it is, and the response port is settled (30_encoding.md R30). -/
def step (s : State) : Host.Outcome State Fault Refusal :=
  match s.cmd with
  | none => serveUnsettled s
  | some w => serve w s

/-- `s` with the instruction whose bits are `w` settled on the command port, where the next step reads it. Bits
that are no command word leave nothing settled (log entries 6 and 12). -/
def State.withFetchWord (s : State) (nbits w : Nat) : State :=
  { s with cmd := tableWord nbits w }

end Sys2Proof.Machine
end

