-- ==== Sys2Proof/WellFormed.lean ====
section
/-! DEFINITION. The check on an assembler line: its literals are in `0 .. 2^32 - 1` (30_encoding.md R36). A decoded
instruction needs no check: its operands are 32-bit words by type (every pattern is accepted, 10_state.md R18). -/

namespace Sys2Proof

/-- Why the assembler refuses a line (R36). The names are the model's (log entry 13). -/
inductive AsmError where
  /-- A literal below 0: "a negative literal, is refused by the assembler". -/
  | negativeLiteral
  /-- A literal above `2^32 - 1`. -/
  | literalTooLarge
  /-- An operand that is neither a decimal nor a `0x` hexadecimal literal. -/
  | badLiteral
  /-- A mnemonic other than the three (R36, R37: no pseudo-instruction, label or directive). -/
  | unknownMnemonic
  /-- The wrong number of operands for the mnemonic. -/
  | wrongOperands
deriving DecidableEq, Repr

/-- A literal in the range `0 .. 2^32 - 1` becomes the word it spells; any other is refused by name (R36). -/
def checkLiteral (n : Int) : Except AsmError Word :=
  if n < 0 then .error .negativeLiteral
  else if 4294967295 < n then .error .literalTooLarge
  else .ok (BitVec.ofInt 32 n)

/-- The literal is in range (R36). -/
def literalFits (n : Int) : Bool :=
  decide (0 ≤ n) && decide (n ≤ 4294967295)

/-- Every literal of the line is in range (R36). -/
def lineWellFormed : AsmLine → Bool
  | .a2p a => literalFits a
  | .a2d a b => literalFits a && literalFits b
  | .d2a a b => literalFits a && literalFits b

end Sys2Proof
end

