-- ==== Sys2Proof/Machine/Assembler.lean ====
section
/-! DEFINITION. The spec's assembler and disassembler, and the written form of a response (30_encoding.md R36). Texts
are lists of characters. What R36 leaves open of the text (spaces, letter case, digits) is fixed by log entry 13. -/

namespace Sys2Proof.Machine

open Sys2Proof

/-- The command word of a line, or why the line is refused (R36). `A2P a` assembles with `b = 0`. -/
def assemble : AsmLine → Except AsmError CmdWord
  | .a2p a =>
    match checkLiteral a with
    | .error e => .error e
    | .ok x => .ok (encode (.a2p x 0))
  | .a2d a b =>
    match checkLiteral a, checkLiteral b with
    | .error e, _ => .error e
    | .ok _, .error e => .error e
    | .ok x, .ok y => .ok (encode (.a2d x y))
  | .d2a a b =>
    match checkLiteral a, checkLiteral b with
    | .error e, _ => .error e
    | .ok _, .error e => .error e
    | .ok x, .ok y => .ok (encode (.d2a x y))

/-- The line of an instruction, and the ignored `b` of an `A2P` where it is not 0, which a disassembler shows in a
comment (R36). -/
def lineOf : Instr → AsmLine × Option Word
  | .a2p a b => (.a2p a.toNat, if b = 0 then none else some b)
  | .a2d a b => (.a2d a.toNat b.toNat, none)
  | .d2a a b => (.d2a a.toNat b.toNat, none)

/-- The line of a command word; the reserved encoding has none (R34, R36). -/
def disassemble (w : CmdWord) : Except DecodeError (AsmLine × Option Word) :=
  match decode w with
  | .ok i => .ok (lineOf i)
  | .error e => .error e

/-- How a response is written: `-> y`, or `-> fault` and the name of the cause (R36). -/
inductive RspText where
  | result (y : Word)
  | fault (c : Cause)
deriving DecidableEq, Repr

/-- The written form of a response word; `none` for the reserved cause 3, which this block never gives (R70). -/
def rspText (r : RspWord) : Option RspText :=
  match causeOfCode (rspCause r) with
  | none => none
  | some .ok => some (.result (rspY r))
  | some c => some (.fault c)

/-- The digits of a number in decimal. -/
def decimalText (n : Nat) : List Char := Nat.toDigits 10 n

/-- A literal in decimal (R36). -/
def literalText : Int → List Char
  | .ofNat n => decimalText n
  | .negSucc n => '-' :: decimalText (n + 1)

/-- A line as R36 writes it: the mnemonic, a space, the operands with a comma between. -/
def lineText : AsmLine → List Char
  | .a2p a => ['A', '2', 'P', ' '] ++ literalText a
  | .a2d a b => ['A', '2', 'D', ' '] ++ literalText a ++ [',', ' '] ++ literalText b
  | .d2a a b => ['D', '2', 'A', ' '] ++ literalText a ++ [',', ' '] ++ literalText b

/-- The name of a fault cause (R70). -/
def causeText : Cause → List Char
  | .ok => "OK".toList
  | .illegalOp => "ILLEGAL_OP".toList
  | .divZero => "DIV_ZERO".toList

/-- A response as R36 writes it. -/
def responseText : RspText → List Char
  | .result y => "-> ".toList ++ decimalText y.toNat
  | .fault c => "-> fault ".toList ++ causeText c

/-- A space or a tab. -/
def isBlank (c : Char) : Bool := c == ' ' || c == '\t'

/-- A text without the blanks at its two ends. -/
def trimBlanks (cs : List Char) : List Char :=
  ((cs.dropWhile isBlank).reverse.dropWhile isBlank).reverse

/-- The value of a digit in base 16; `none` for another character. -/
def hexDigit (c : Char) : Option Nat :=
  if '0' ≤ c ∧ c ≤ '9' then some (c.toNat - 48)
  else if 'a' ≤ c ∧ c ≤ 'f' then some (c.toNat - 87)
  else if 'A' ≤ c ∧ c ≤ 'F' then some (c.toNat - 55)
  else none

/-- The number a run of digits spells in the base, after the digits that gave `acc`; `none` where a character is no
digit of the base. A `_` between digits is such a character: the numbers of the spec may have it as a separator
(00_scope.md section 6), R36 does not say whether a literal may, and the model refuses it (DESIGN CHOICE, log entry
13). -/
def readDigits (base : Nat) : Nat → List Char → Option Nat
  | acc, [] => some acc
  | acc, c :: cs =>
    match hexDigit c with
    | none => none
    | some d => if d < base then readDigits base (acc * base + d) cs else none

/-- A literal without a sign, in decimal or `0x` hexadecimal (R36). -/
def readUnsigned : List Char → Option Nat
  | '0' :: 'x' :: c :: cs => readDigits 16 0 (c :: cs)
  | c :: cs => readDigits 10 0 (c :: cs)
  | [] => none

/-- A literal; a sign is read, so that a negative literal is refused as negative (R36). -/
def readLiteral : List Char → Except AsmError Int
  | '-' :: cs =>
    match readUnsigned cs with
    | none => .error .badLiteral
    | some n => .ok (-(n : Int))
  | cs =>
    match readUnsigned cs with
    | none => .error .badLiteral
    | some n => .ok (n : Int)

/-- The text cut at its commas. -/
def splitCommas : List Char → List (List Char)
  | [] => [[]]
  | c :: cs =>
    if c = ',' then [] :: splitCommas cs
    else
      match splitCommas cs with
      | [] => [[c]]
      | w :: ws => (c :: w) :: ws

/-- The line of a mnemonic and its operand texts. -/
def readOperands (mnemonic : List Char) (operands : List (List Char)) : Except AsmError AsmLine :=
  if mnemonic = ['A', '2', 'P'] then
    match operands with
    | [x] =>
      match readLiteral x with
      | .error e => .error e
      | .ok a => .ok (.a2p a)
    | _ => .error .wrongOperands
  else if mnemonic = ['A', '2', 'D'] ∨ mnemonic = ['D', '2', 'A'] then
    match operands with
    | [x, y] =>
      match readLiteral x, readLiteral y with
      | .error e, _ => .error e
      | .ok _, .error e => .error e
      | .ok a, .ok b => .ok (if mnemonic = ['A', '2', 'D'] then .a2d a b else .d2a a b)
    | _ => .error .wrongOperands
  else .error .unknownMnemonic

/-- A line of text as R36 writes it: what follows `;` is comment, and a line with nothing else on it holds no
command. -/
def readLine (text : List Char) : Except AsmError (Option AsmLine) :=
  let code := trimBlanks (text.takeWhile (fun c => c != ';'))
  if code = [] then .ok none
  else
    let mnemonic := code.takeWhile (fun c => !isBlank c)
    let rest := code.dropWhile (fun c => !isBlank c)
    match readOperands mnemonic ((splitCommas rest).map trimBlanks) with
    | .error e => .error e
    | .ok l => .ok (some l)

end Sys2Proof.Machine
end

