-- ==== Sys2Proof/Machine/Datapath.lean ====
section
/-! DEFINITION. The other forms of the arithmetic that the spec speaks of: the fixed-width datapaths it calls sufficient
(41_angle_to_duty.md R53; 42_duty_to_angle.md R63, R64), the implementation that keeps its intermediates in 32 bits
(70_reset_and_hazards.md R86), and the single-division formulas it warns against (R55, R66). No step uses them: they are
what the claims compare the operations with. -/

namespace Sys2Proof.Machine

open Sys2Proof

/-- `a2p` at the widths R40 gives: an 8-bit clamped angle, a 19-bit product, an 11-bit quotient, a 12-bit sum. -/
def a2pDatapath (a : Word) : BitVec 12 :=
  let ac : BitVec 8 := if a ≤ 180#32 then a.setWidth 8 else 180#8
  let prod : BitVec 19 := ac.setWidth 19 * 2000#19
  let q : BitVec 11 := (prod / 180#19).setWidth 11
  500#12 + q.setWidth 12

/-- `a2d` with a 12-bit by 32-bit multiplier, a 44-bit product and a division by a 15-bit constant (R53). -/
def a2dDatapath (a b : Word) : Word :=
  let prod : BitVec 44 := (a2pDatapath a).setWidth 44 * b.setWidth 44
  let duty : BitVec 44 := prod / 20000#44
  if duty ≤ b.setWidth 44 then duty.setWidth 32 else b

/-- The first stage of `d2a`: a 32-bit by 15-bit multiplier with a 47-bit product, and a 47-bit by 32-bit divider
(R64). Meant for `b ≠ 0`. -/
def d2aPulseDatapath (a b : Word) : BitVec 47 :=
  a.setWidth 47 * 20000#47 / b.setWidth 47

/-- `d2a` with a 55-bit second stage (R64). -/
def d2aWideDatapath (a b : Word) : Word :=
  let pulse : BitVec 55 := (d2aPulseDatapath a b).setWidth 55
  let t : BitVec 55 := if 500#55 ≤ pulse then pulse - 500#55 else 0#55
  let q : BitVec 55 := t * 180#55 / 2000#55
  if q ≤ 180#55 then q.setWidth 32 else 180#32

/-- `d2a` with `pulse_us` clamped into `500 .. 2500` straight after the first division, a 19-bit second stage and no
final clamp (R63). -/
def d2aEarlyClampDatapath (a b : Word) : Word :=
  let pulse : BitVec 47 := d2aPulseDatapath a b
  let clamped : BitVec 12 :=
    if pulse ≤ 500#47 then 500#12 else if 2500#47 ≤ pulse then 2500#12 else pulse.setWidth 12
  let prod2 : BitVec 19 := (clamped - 500#12).setWidth 19 * 180#19
  (prod2 / 2000#19).setWidth 32

/-- `a2d` by an implementation whose intermediates are 32 bits and wrap (R86; PRESUMED, log entry 15: wrapping is the
spec's general knowledge G2, not the source's). -/
def a2dWrap32 (a b : Word) : Word :=
  let pulse : Word := 500#32 + (if a ≤ 180#32 then a else 180#32) * 2000#32 / 180#32
  let duty : Word := pulse * b / 20000#32
  if duty ≤ b then duty else b

/-- `d2a` by an implementation whose intermediates are 32 bits and wrap, clamping last (R86; log entry 15). -/
def d2aWrap32 (a b : Word) : Word :=
  let pulse : Word := a * 20000#32 / b
  let t : Word := if 500#32 ≤ pulse then pulse - 500#32 else 0#32
  let q : Word := t * 180#32 / 2000#32
  if q ≤ 180#32 then q else 180#32

/-- `d2a` by an implementation whose intermediates are 32 bits and wrap, with the early clamp of R63 (R86; log
entry 15). -/
def d2aWrap32EarlyClamp (a b : Word) : Word :=
  let pulse : Word := a * 20000#32 / b
  let clamped : Word :=
    if pulse ≤ 500#32 then 500#32 else if 2500#32 ≤ pulse then 2500#32 else pulse
  (clamped - 500#32) * 180#32 / 2000#32

/-- The single-division formula that R55 says is a different function from `a2d`. -/
def a2dFolded (angle maxDuty : Nat) : Nat :=
  (90000 + 2000 * min angle 180) * maxDuty / 3600000

/-- The single-division formula that R66 says is a different function from `d2a`, clamped the same way. -/
def d2aFolded (duty maxDuty : Nat) : Nat :=
  min ((20000 * duty - 500 * maxDuty) * 180 / (2000 * maxDuty)) 180

end Sys2Proof.Machine
end

