-- ==== Sys2Proof/Machine/Transactions.lean ====
section
/-! DEFINITION. What a host does with the block: one transaction, and a run of them (70_reset_and_hazards.md R88).
The order and repetition of the command words are the host's (10_state.md R12; log entry 11). -/

namespace Sys2Proof.Machine

open Sys2Proof

/-- One transaction (R30): present the command word, hold it, and let the response settle (R82). -/
def transact (w : CmdWord) (s : State) : Result :=
  step (s.present w)

/-- A run (R88): the transactions of the list, in order; the responses the host samples, and the state it leaves. -/
def runWords : List CmdWord → State → List RspWord × State
  | [], s => ([], s)
  | w :: ws, s =>
    match transact w s with
    | .next t => (t.rsp :: (runWords ws t).1, (runWords ws t).2)
    | .fault _ => ([], s)
    | .refused _ => ([], s)

/-- The responses of a run. -/
def responses (ws : List CmdWord) (s : State) : List RspWord :=
  (runWords ws s).1

end Sys2Proof.Machine
end

