-- ==== Sys2Proof/Safety.lean ====
section
/-! DEFINITION. The terms of the claims: a response that the rules give for a command word, a settled response port,
the host's duty, and a fault-free response. -/

namespace Sys2Proof.Machine

open Sys2Proof

/-- Whatever the ports showed before, with `w` on the command port a step answers a next state whose response port
shows `r`. -/
def Answers (w : CmdWord) (r : RspWord) : Prop :=
  ∀ s : State, ∃ t, step { s with cmd := some w } = .next t ∧ t.rsp = r

/-- `r` is a response that the rules allow for `w`, written from the formulas and not from the model's functions:
30_encoding.md R32, R34; 40_angle_to_pulse.md R40; 41_angle_to_duty.md R50; 42_duty_to_angle.md R60, R62. The `y` of a
faulting response is any word (60_exceptions.md R71). -/
def Conforms (w : CmdWord) (r : RspWord) : Prop :=
  let a := (cmdA w).toNat
  let b := (cmdB w).toNat
  (cmdOp w = 0 → rspCause r = 0 ∧ (rspY r).toNat = 500 + min a 180 * 2000 / 180) ∧
  (cmdOp w = 1 → rspCause r = 0 ∧
    (rspY r).toNat = min ((500 + min a 180 * 2000 / 180) * b / 20000) b) ∧
  (cmdOp w = 2 → b ≠ 0 → rspCause r = 0 ∧
    (rspY r).toNat = min ((a * 20000 / b - 500) * 180 / 2000) 180) ∧
  (cmdOp w = 2 → b = 0 → rspCause r = 2) ∧
  (cmdOp w = 3 → rspCause r = 1)

/-- The response port shows a response the rules allow for the command word on the command port (R30); nothing is
asked while no command word has settled (U4). -/
def State.Settled (s : State) : Prop :=
  ∀ w, s.cmd = some w → Conforms w s.rsp

/-- The host's duty of 70_reset_and_hazards.md R83: no reserved op code, and no `D2A` with `b = 0`. -/
def hostDuty (w : CmdWord) : Bool :=
  decide (cmdOp w ≠ 3) && decide (cmdOp w = 2 → cmdB w ≠ 0)

/-- The response carries no fault (R31, R70). -/
def faultFree (r : RspWord) : Bool :=
  decide (rspCause r = 0)

end Sys2Proof.Machine
end

