-- ==== Sys2Proof/Certificates/Slice0/Obligations.lean ====
section
/-! DEFINITION. The statements for the provers. They are about any state: a state of this hardware is its two ports and
the model's draw counter, so a statement that fixes the whole next state is a frame as well (no register, flag, memory or
saved state exists, 10_state.md R10 to R17). -/

open Sys2Proof Sys2Proof.Machine

/-! ### Encoding -/

/-- Command words written out bit field by bit field from 30_encoding.md R30 and R32 decode to what they stand for
(the words of 40 R40, 41 R50, 42 R60 and 95_test_vectors.md section 2.5). -/
def Obligations.WordsWrittenFromTheEncodingDecode : Prop :=
  decode 0x0_00000000_0000005A#66 = .ok (.a2p 90 0) ∧
  decode 0x1_00000400_0000005A#66 = .ok (.a2d 90 1024) ∧
  decode 0x2_00000400_0000004C#66 = .ok (.d2a 76 1024) ∧
  decode 0x3_00000400_0000005A#66 = .error .reservedOp

/-- Decoding the encoding of an instruction gives it back, every operand at every value (R30, R32, R33). -/
def Obligations.DecodeOfEncode : Prop :=
  ∀ i : Instr, decode (encode i) = .ok i

/-- Every word that decodes is the encoding of what it decodes to, and the words that do not are exactly those with
op code 3 (R32, R34). -/
def Obligations.EncodeOfDecode : Prop :=
  (∀ (w : CmdWord) (i : Instr), decode w = .ok i → encode i = w) ∧
  (∀ w : CmdWord, decode w = .error .reservedOp ↔ cmdOp w = 3)

/-- The match and mask test of R32 decides which instruction a word is, and a word that matches no row is the reserved
encoding. -/
def Obligations.DecodeFollowsMatchAndMask : Prop :=
  ∀ w : CmdWord,
    ((∃ a b, decode w = .ok (.a2p a b)) ↔
      w &&& 0x3_00000000_00000000#66 = 0x0_00000000_00000000#66) ∧
    ((∃ a b, decode w = .ok (.a2d a b)) ↔
      w &&& 0x3_00000000_00000000#66 = 0x1_00000000_00000000#66) ∧
    ((∃ a b, decode w = .ok (.d2a a b)) ↔
      w &&& 0x3_00000000_00000000#66 = 0x2_00000000_00000000#66) ∧
    (decode w = .error .reservedOp ↔
      w &&& 0x3_00000000_00000000#66 = 0x3_00000000_00000000#66)

/-- `cmd = op * 2^64 + b * 2^32 + a` (R30): a word decodes to an instruction exactly when it is that number. -/
def Obligations.DecodeReadsTheCommandNumber : Prop :=
  ∀ (w : CmdWord) (a b : Word),
    (decode w = .ok (.a2p a b) ↔ w.toNat = 0 * 2 ^ 64 + b.toNat * 2 ^ 32 + a.toNat) ∧
    (decode w = .ok (.a2d a b) ↔ w.toNat = 1 * 2 ^ 64 + b.toNat * 2 ^ 32 + a.toNat) ∧
    (decode w = .ok (.d2a a b) ↔ w.toNat = 2 * 2 ^ 64 + b.toNat * 2 ^ 32 + a.toNat)

/-- `rsp = cause * 2^32 + y`, and a result without a fault is below `2^12`, `2^29` or `2^8`, so that the unused upper
bits of `y` are zero (R31). -/
def Obligations.ResultsFitTheResponseWord : Prop :=
  (∀ r : RspWord, r.toNat = (rspCause r).toNat * 2 ^ 32 + (rspY r).toNat) ∧
  ∀ (s : State) (w : CmdWord), ∃ t, step { s with cmd := some w } = .next t ∧
    (rspCause t.rsp = 0 →
      (cmdOp w = 0 → (rspY t.rsp).toNat < 2 ^ 12) ∧
      (cmdOp w = 1 → (rspY t.rsp).toNat < 2 ^ 29) ∧
      (cmdOp w = 2 → (rspY t.rsp).toNat < 2 ^ 8))

/-! ### What a step and each instruction do -/

/-- When the word settled on the command port decodes to an instruction, a step is that instruction's meaning at the
same state: nothing is added around it, since there is no program counter to move (10_state.md R12). -/
def Obligations.StepRunsTheDecodedInstruction : Prop :=
  ∀ (s : State) (w : CmdWord) (i : Instr),
    s.cmd = some w → decode w = .ok i → step s = exec i s

/-- `A2P` (R40): for every operand pair and every state the response is `{0, 500 + min(a,180)*2000/180}`, and nothing
else changes; a step at a word with op code 0 does this with the word's `a`. -/
def Obligations.A2pGivesThePulseWidth : Prop :=
  (∀ (a b : Word) (s : State), exec (.a2p a b) s = .next
    { s with rsp := rspPack 0 (BitVec.ofNat 32 (500 + min a.toNat 180 * 2000 / 180)) }) ∧
  ∀ (s : State) (w : CmdWord), s.cmd = some w → cmdOp w = 0 → step s = .next
    { s with rsp := rspPack 0 (BitVec.ofNat 32 (500 + min (cmdA w).toNat 180 * 2000 / 180)) }

/-- `A2D` (R50): for every operand pair and every state the response is the truncated pulse width times `b` over
20000, saturated at `b`, with cause 0, and nothing else changes; a step at a word with op code 1 does this with the
word's operands. -/
def Obligations.A2dGivesTheDutyValue : Prop :=
  (∀ (a b : Word) (s : State), exec (.a2d a b) s = .next
    { s with rsp := rspPack 0 (BitVec.ofNat 32
        (min ((500 + min a.toNat 180 * 2000 / 180) * b.toNat / 20000) b.toNat)) }) ∧
  ∀ (s : State) (w : CmdWord), s.cmd = some w → cmdOp w = 1 → step s = .next
    { s with rsp := rspPack 0 (BitVec.ofNat 32
        (min ((500 + min (cmdA w).toNat 180 * 2000 / 180) * (cmdB w).toNat / 20000) (cmdB w).toNat)) }

/-- `D2A` (R60, R62): for every state and operands with `b ≠ 0` the response is the clamped angle with cause 0, and
nothing else changes; with `b = 0` the response has cause 2, whatever `a` is (its `y` is unspecified, so nothing is said
of it), and the command port is left as it is; a step at a word with op code 2 does this with the word's operands. The
subtraction is that of natural numbers, which is 0 where it would be negative. -/
def Obligations.D2aGivesTheAngle : Prop :=
  (∀ (a b : Word) (s : State), b ≠ 0 → exec (.d2a a b) s = .next
    { s with rsp := rspPack 0 (BitVec.ofNat 32
        (min ((a.toNat * 20000 / b.toNat - 500) * 180 / 2000) 180)) }) ∧
  (∀ (a : Word) (s : State), ∃ t, exec (.d2a a 0) s = .next t ∧
    rspCause t.rsp = 2 ∧ t.cmd = s.cmd) ∧
  (∀ (s : State) (w : CmdWord), s.cmd = some w → cmdOp w = 2 → cmdB w ≠ 0 → step s = .next
    { s with rsp := rspPack 0 (BitVec.ofNat 32
        (min (((cmdA w).toNat * 20000 / (cmdB w).toNat - 500) * 180 / 2000) 180)) }) ∧
  ∀ (s : State) (w : CmdWord), s.cmd = some w → cmdOp w = 2 → cmdB w = 0 →
    ∃ t, step s = .next t ∧ rspCause t.rsp = 2 ∧ t.cmd = s.cmd

/-- The reserved encoding (60_exceptions.md R72): for every `a` and `b` the response has cause 1 (its `y` is
unspecified, so nothing is said of it), and the command port is left as it is. -/
def Obligations.ReservedOpGivesIllegalOp : Prop :=
  ∀ (s : State) (w : CmdWord), s.cmd = some w → cmdOp w = 3 →
    ∃ t, step s = .next t ∧ rspCause t.rsp = 1 ∧ t.cmd = s.cmd

/-- The whole next state of the two faults, with the model's own form of the unspecified `y` (log entry 3, the
model's choice): the free value of the draw counter, which advances by one, and nothing else changes. -/
def Obligations.FaultsDrawAFreshWord : Prop :=
  (∀ (a : Word) (s : State), exec (.d2a a 0) s = .next
    { s with rsp := rspPack 2 (Config.anyXlen s.draws), draws := s.draws + 1 }) ∧
  (∀ (s : State) (w : CmdWord), s.cmd = some w → cmdOp w = 3 → step s = .next
    { s with rsp := rspPack 1 (Config.anyXlen s.draws), draws := s.draws + 1 })

/-- The cause codes (60_exceptions.md R70, R73): a settled command word always gets a response; its cause is 0, 1 or 2;
it is 1 exactly for op code 3, and 2 exactly for `D2A` with `b = 0`; so `A2P` and `A2D` never fault. -/
def Obligations.CauseOfEveryResponse : Prop :=
  ∀ (s : State) (w : CmdWord), ∃ t, step { s with cmd := some w } = .next t ∧
    (rspCause t.rsp = 0 ∨ rspCause t.rsp = 1 ∨ rspCause t.rsp = 2) ∧
    (rspCause t.rsp = 1 ↔ cmdOp w = 3) ∧
    (rspCause t.rsp = 2 ↔ cmdOp w = 2 ∧ cmdB w = 0)

/-- What is not a fault (60_exceptions.md R74), each with cause 0: any angle, those above 180 acting as 180; a duty
above `max_duty` (180); a pulse width below 500 in `D2A` (0); `max_duty = 0` in `A2D` (0); any `b` in `A2P`; and every
division whose remainder is dropped, every `D2A` with `b ≠ 0` among them. -/
def Obligations.NothingElseIsAFault : Prop :=
  (∀ a b : Word, ∃ y, Answers (encode (.a2p a b)) (rspPack 0 y) ∧
    Answers (encode (.a2p a 0)) (rspPack 0 y) ∧
    (180 < a.toNat → Answers (encode (.a2p 180 b)) (rspPack 0 y))) ∧
  (∀ a b : Word, ∃ y, Answers (encode (.a2d a b)) (rspPack 0 y) ∧
    (180 < a.toNat → Answers (encode (.a2d 180 b)) (rspPack 0 y)) ∧
    (b = 0 → y = 0)) ∧
  (∀ a b : Word, b ≠ 0 → ∃ y, Answers (encode (.d2a a b)) (rspPack 0 y) ∧
    (b.toNat < a.toNat → y = 180) ∧
    (a.toNat * 20000 / b.toNat < 500 → y = 0))

/-- What a fault is (60_exceptions.md R71): it has one of the two fault causes, the command port is left as it is, and
the next command word is answered as if the fault had not occurred. -/
def Obligations.FaultLeavesNoTrace : Prop :=
  ∀ (s t : State) (v : CmdWord), s.cmd = some v → step s = .next t → rspCause t.rsp ≠ 0 →
    (rspCause t.rsp = 1 ∨ rspCause t.rsp = 2) ∧ t.cmd = s.cmd ∧
    ∀ w : CmdWord, ∃ t' s', step { t with cmd := some w } = .next t' ∧
      step { s with cmd := some w } = .next s' ∧
      rspCause t'.rsp = rspCause s'.rsp ∧ (rspCause s'.rsp = 0 → t'.rsp = s'.rsp)

/-! ### A2P -/

/-- The clamp comes before the multiplication (40_angle_to_pulse.md R41): an angle and its clamped value give the same
next state in `A2P` and in `A2D`, 200 acts as 180, and the clamped product fits 19 bits. -/
def Obligations.ClampPrecedesMultiplication : Prop :=
  (∀ (a b : Word) (s : State), ∃ t, exec (.a2p a b) s = .next t ∧
    exec (.a2p (BitVec.ofNat 32 (min a.toNat 180)) b) s = .next t) ∧
  (∀ (a m : Word) (s : State), ∃ t, exec (.a2d a m) s = .next t ∧
    exec (.a2d (BitVec.ofNat 32 (min a.toNat 180)) m) s = .next t) ∧
  (∀ (m : Word) (s : State), ∃ t, exec (.a2d 200 m) s = .next t ∧ exec (.a2d 180 m) s = .next t) ∧
  ∀ a : Word, min a.toNat 180 * 2000 < 2 ^ 19

/-- The pulse width is in `500 .. 2500`, 500 at angle 0 and 2500 at every angle from 180 up (40_angle_to_pulse.md
R42, which the spec derives from R40). -/
def Obligations.PulseWidthRange : Prop :=
  ∀ a b : Word, ∃ y : Word, Answers (encode (.a2p a b)) (rspPack 0 y) ∧
    500 ≤ y.toNat ∧ y.toNat ≤ 2500 ∧
    (a = 0 → y.toNat = 500) ∧ (180 ≤ a.toNat → y.toNat = 2500)

/-- The pulse width never falls as the angle rises, rises strictly up to 180, by 12 where the new angle is a multiple
of 9 and by 11 otherwise, and is constant from 180 up (40_angle_to_pulse.md R43, which the spec derives from R40). -/
def Obligations.PulseWidthMonotone : Prop :=
  ∀ a₁ a₂ b₁ b₂ : Word, a₁.toNat ≤ a₂.toNat → ∃ y₁ y₂ : Word,
    Answers (encode (.a2p a₁ b₁)) (rspPack 0 y₁) ∧ Answers (encode (.a2p a₂ b₂)) (rspPack 0 y₂) ∧
    y₁.toNat ≤ y₂.toNat ∧
    (a₁.toNat < a₂.toNat → a₂.toNat ≤ 180 → y₁.toNat < y₂.toNat) ∧
    (a₂.toNat = a₁.toNat + 1 → a₂.toNat ≤ 180 →
      y₂.toNat = y₁.toNat + (if a₂.toNat % 9 = 0 then 12 else 11)) ∧
    (180 ≤ a₁.toNat → y₁ = y₂)

/-- On `0 .. 180` the pulse width is the truncation of `500 + a * 100/9`, exact at the multiples of 9 only, and equals
`500 + 11*a + a/9` (40_angle_to_pulse.md R43 (c) and R44, which the spec derives from R40). -/
def Obligations.PulseWidthClosedForm : Prop :=
  ∀ a b : Word, a.toNat ≤ 180 → ∃ y : Word, Answers (encode (.a2p a b)) (rspPack 0 y) ∧
    y.toNat = 500 + 100 * a.toNat / 9 ∧
    y.toNat = 500 + 11 * a.toNat + a.toNat / 9 ∧
    (9 * y.toNat = 9 * 500 + 100 * a.toNat ↔ a.toNat % 9 = 0)

/-! ### A2D -/

/-- The final saturation never changes the duty value: it is between `b/40` and `b/8`, at most `b`, equal to the
unsaturated quotient, and `b/8` from angle 180 up (41_angle_to_duty.md R51 and R52, which the spec derives from
R50). -/
def Obligations.DutyValueRange : Prop :=
  ∀ a b : Word, ∃ y : Word, Answers (encode (.a2d a b)) (rspPack 0 y) ∧
    y.toNat = (500 + min a.toNat 180 * 2000 / 180) * b.toNat / 20000 ∧
    b.toNat / 40 ≤ y.toNat ∧ y.toNat ≤ b.toNat / 8 ∧ y.toNat ≤ b.toNat ∧
    (180 ≤ a.toNat → y.toNat = b.toNat / 8)

/-- The duty value never falls as the angle or the resolution rises (41_angle_to_duty.md R52, which the spec derives
from R50). -/
def Obligations.DutyValueMonotone : Prop :=
  ∀ a₁ a₂ b₁ b₂ : Word, a₁.toNat ≤ a₂.toNat → b₁.toNat ≤ b₂.toNat → ∃ y₁ y₂ : Word,
    Answers (encode (.a2d a₁ b₁)) (rspPack 0 y₁) ∧ Answers (encode (.a2d a₂ b₂)) (rspPack 0 y₂) ∧
    y₁.toNat ≤ y₂.toNat

/-- Each division truncates, after its multiplication (00_scope.md R7, R8), said without a division: the pulse width
`p` that `A2P` shows for an angle and the duty value `d` that `A2D` shows for it bracket the exact quotients. -/
def Obligations.DivisionsTruncateAfterMultiplying : Prop :=
  ∀ a b : Word, ∃ p d : Word,
    Answers (encode (.a2p a b)) (rspPack 0 p) ∧ Answers (encode (.a2d a b)) (rspPack 0 d) ∧
    500 ≤ p.toNat ∧
    (p.toNat - 500) * 180 ≤ min a.toNat 180 * 2000 ∧
    min a.toNat 180 * 2000 < (p.toNat - 500 + 1) * 180 ∧
    d.toNat * 20000 ≤ p.toNat * b.toNat ∧ p.toNat * b.toNat < (d.toNat + 1) * 20000

/-- The source's six literal scenarios, and its angle 90 at the other four resolutions, as command and response words
(95_test_vectors.md section 1). -/
def Obligations.SourceLiteralScenarios : Prop :=
  Answers 0x0_00000000_00000000#66 0x0_000001F4#34 ∧
  Answers 0x0_00000000_0000005A#66 0x0_000005DC#34 ∧
  Answers 0x0_00000000_000000B4#66 0x0_000009C4#34 ∧
  Answers 0x1_00000400_00000000#66 0x0_00000019#34 ∧
  Answers 0x1_00000400_0000005A#66 0x0_0000004C#34 ∧
  Answers 0x1_00000400_000000B4#66 0x0_00000080#34 ∧
  Answers 0x1_00000100_0000005A#66 0x0_00000013#34 ∧
  Answers 0x1_00001000_0000005A#66 0x0_00000133#34 ∧
  Answers 0x1_00004000_0000005A#66 0x0_000004CC#34 ∧
  Answers 0x1_00010000_0000005A#66 0x0_00001333#34

/-! ### D2A -/

/-- The subtraction saturates at 0 (42_duty_to_angle.md R61, which the spec derives): a pulse width below 500 gives
angle 0, and the duty values that `A2D` gives for angle 0 at the five resolutions of the source are such. -/
def Obligations.LowPulseWidthGivesAngleZero : Prop :=
  (∀ a b : Word, b ≠ 0 → a.toNat * 20000 / b.toNat < 500 →
    Answers (encode (.d2a a b)) (rspPack 0 0)) ∧
  ∀ m : Word, m ∈ [256#32, 1024#32, 4096#32, 16384#32, 65536#32] → ∃ d : Word,
    Answers (encode (.a2d 0 m)) (rspPack 0 d) ∧ d.toNat * 20000 / m.toNat < 500 ∧
    Answers (encode (.d2a d m)) (rspPack 0 0)

/-- The two ends of the angle clamp in closed form: 180 exactly when `8*a >= b`, and 0 exactly when `625*a < 16*b`
(42_duty_to_angle.md R63, which the spec derives from R60). -/
def Obligations.AngleEndConditions : Prop :=
  ∀ a b : Word, b ≠ 0 → ∃ y : Word, Answers (encode (.d2a a b)) (rspPack 0 y) ∧
    y.toNat ≤ 180 ∧
    (y.toNat = 180 ↔ 8 * a.toNat ≥ b.toNat) ∧
    (y.toNat = 0 ↔ 625 * a.toNat < 16 * b.toNat)

/-- The angle never falls as the duty rises or the resolution falls, and depends on the operands through the integer
`a*20000/b` only (42_duty_to_angle.md R65, which the spec derives from R60 and R63). -/
def Obligations.AngleMonotone : Prop :=
  ∀ a₁ a₂ b₁ b₂ : Word, b₁ ≠ 0 → b₂ ≠ 0 → ∃ y₁ y₂ : Word,
    Answers (encode (.d2a a₁ b₁)) (rspPack 0 y₁) ∧ Answers (encode (.d2a a₂ b₂)) (rspPack 0 y₂) ∧
    (a₁.toNat ≤ a₂.toNat → b₂.toNat ≤ b₁.toNat → y₁.toNat ≤ y₂.toNat) ∧
    (a₁.toNat * 20000 / b₁.toNat = a₂.toNat * 20000 / b₂.toNat → y₁ = y₂)

/-! ### Widths -/

/-- The fixed-width datapaths of R40 (19-bit product) and R53 (44-bit product) give the responses of `A2P` and `A2D`
for every operand pair. -/
def Obligations.ForwardDatapathsAreExact : Prop :=
  ∀ a b : Word,
    Answers (encode (.a2p a b)) (rspPack 0 ((a2pDatapath a).setWidth 32)) ∧
    Answers (encode (.a2d a b)) (rspPack 0 (a2dDatapath a b))

/-- The fixed-width datapaths of R64 (47-bit product and quotient, 55-bit second stage) and R63 (early clamp, 19-bit
second stage, no final clamp) give the response of `D2A` for every operand pair with `b ≠ 0`. -/
def Obligations.InverseDatapathsAreExact : Prop :=
  ∀ a b : Word, b ≠ 0 →
    Answers (encode (.d2a a b)) (rspPack 0 (d2aWideDatapath a b)) ∧
    Answers (encode (.d2a a b)) (rspPack 0 (d2aEarlyClampDatapath a b))

/-- The envelope of 70_reset_and_hazards.md R86, which the spec derives: an implementation whose intermediates are 32
bits and wrap agrees with this hardware inside it, and differs at the first product that overflows. That such an
implementation wraps is the model's reading of the spec's general knowledge (log entry 15). -/
def Obligations.ThirtyTwoBitEnvelope : Prop :=
  (∀ a b : Word, b.toNat ≤ 1717986 →
    Answers (encode (.a2d a b)) (rspPack 0 (a2dWrap32 a b))) ∧
  (∀ a b : Word, b ≠ 0 → a.toNat ≤ 214748 →
    Answers (encode (.d2a a b)) (rspPack 0 (d2aWrap32EarlyClamp a b))) ∧
  (∀ a b : Word, b ≠ 0 → a.toNat ≤ 214748 → a.toNat * 20000 / b.toNat ≤ 23861429 →
    Answers (encode (.d2a a b)) (rspPack 0 (d2aWrap32 a b))) ∧
  (∀ a : Word, 180 ≤ a.toNat → ¬ Answers (encode (.a2d a 1717987)) (rspPack 0 (a2dWrap32 a 1717987)))

/-- Folding the two divisions into one gives a different function (41_angle_to_duty.md R55, 42_duty_to_angle.md R66,
which the spec derives): the named counterexamples, and how many nominal angles differ at each resolution, and how many
duties at 1024 and 4096. -/
def Obligations.TwoTruncationsMustNotBeFolded : Prop :=
  a2d 6 1024 = 28 ∧ a2dFolded 6 1024 = 29 ∧ d2a 33 1024 = 12 ∧ d2aFolded 33 1024 = 13 ∧
  [1024, 4096, 16384, 65536].map (fun m =>
    ((List.range 181).filter (fun a => a2d a m != a2dFolded a m)).length) = [3, 14, 57, 142] ∧
  [1024, 4096].map (fun m =>
    ((List.range (m / 4)).filter (fun a => d2a a m != d2aFolded a m)).length) = [4, 20]

/-! ### Roundtrip -/

/-- The roundtrip, the host carrying the duty value from `A2D` into `D2A` (42_duty_to_angle.md R67,
70_reset_and_hazards.md R84): at every resolution it never returns more than it was given; it loses at most 2 degrees
at every resolution from 1024 up, at most 1 from 4096 up, and at most 7 at 256. The spec states the figures at five
resolutions by evaluation; for every other resolution the bound is this model's inference from R50 and R60. -/
def Obligations.RoundtripLosesLittle : Prop :=
  ∀ a m : Word, a.toNat ≤ 180 → m ≠ 0 → ∃ d r : Word,
    Answers (encode (.a2d a m)) (rspPack 0 d) ∧ Answers (encode (.d2a d m)) (rspPack 0 r) ∧
    r.toNat ≤ a.toNat ∧
    (1024 ≤ m.toNat → a.toNat ≤ r.toNat + 2) ∧
    (4096 ≤ m.toNat → a.toNat ≤ r.toNat + 1) ∧
    (m = 256 → a.toNat ≤ r.toNat + 7)

/-- The source's roundtrip tolerance of 2 fails at resolution 256 (90_conflicts.md C1): the error is 7 first at angle
11, and is above 2 at 127 of the 181 nominal angles. -/
def Obligations.RoundtripToleranceFailsAt256 : Prop :=
  Answers (encode (.a2d 11 256)) (rspPack 0 7) ∧ Answers (encode (.d2a 7 256)) (rspPack 0 4) ∧
  (∀ a : Fin 11, a.val < d2a (a2d a.val 256) 256 + 7) ∧
  ((List.range 181).filter (fun a => decide (d2a (a2d a 256) 256 + 2 < a))).length = 127

/-! ### The machine as a whole -/

/-- From every state a step answers a next state; it leaves the command port as it is, and the response port then shows
a response that the rules allow for the command word on the command port (R30). In particular a settled port stays
settled, and the block never stops, waits or needs to be reset (R71). That a state with no settled command word has
a next state is the model's choice (log entry 4). -/
def Obligations.EveryStepSettlesTheResponsePort : Prop :=
  ∀ s : State, ∃ t, step s = .next t ∧ t.cmd = s.cmd ∧ t.Settled

/-- The state after reset: nothing is settled on the command port and the port invariant holds (10_state.md R19,
70_reset_and_hazards.md R80). That reset leaves the command port without a settled word is the model's choice (log
entry 5). -/
def Obligations.ResetHasASettledPort : Prop :=
  State.reset.cmd = none ∧ State.reset.Settled

/-- While no command word has settled, the response port shows any value and nothing else but the model's draw counter
changes (93_implementation_defined.md U4). That such a moment is a step of the model is the model's choice (log
entry 4). -/
def Obligations.UnsettledPortShowsAnyValue : Prop :=
  ∀ s : State, s.cmd = none → step s = .next
    { s with rsp := Config.unsettledRsp s.draws, draws := s.draws + 1 }

/-- Looking at a fault-free response again changes nothing at all (10_state.md R17 (a), 20_memory.md R23): while the
host holds the command word, the state is a fixed point of the step. -/
def Obligations.FaultFreeResponseIsRepeatable : Prop :=
  ∀ (s t : State) (w : CmdWord), s.cmd = some w → step s = .next t → rspCause t.rsp = 0 →
    step t = .next t

/-- The response to a command word is a function of that word alone (10_state.md R10): from any two states it is
answered with the same cause, and with the same response word unless it faults. -/
def Obligations.ResponseDependsOnTheCommandWordAlone : Prop :=
  ∀ (w : CmdWord) (s₁ s₂ : State), ∃ t₁ t₂,
    step { s₁ with cmd := some w } = .next t₁ ∧ step { s₂ with cmd := some w } = .next t₂ ∧
    rspCause t₁.rsp = rspCause t₂.rsp ∧ (rspCause t₁.rsp = 0 → t₁.rsp = t₂.rsp)

/-- A run gives one response for each command word, in order, and each is a response that the rules allow for its own
command word (70_reset_and_hazards.md R88, 20_memory.md R25). The form of a run is log entry 11. -/
def Obligations.EveryResponseOfARunConforms : Prop :=
  ∀ (ws : List CmdWord) (s : State), List.Forall₂ Conforms ws (responses ws s)

/-- Transactions do not interact (20_memory.md R25): in any two runs, of one instance or of two, from any states and
with any other transactions before and after, the same command word is answered by a response the rules allow for it,
with the same cause, and with the same response word unless it faults. The form of a run is log entry 11. -/
def Obligations.TransactionsDoNotInteract : Prop :=
  ∀ (ws₁ ws₂ : List CmdWord) (s₁ s₂ : State) (k₁ k₂ : Nat) (w : CmdWord),
    ws₁[k₁]? = some w → ws₂[k₂]? = some w → ∃ r₁ r₂,
      (responses ws₁ s₁)[k₁]? = some r₁ ∧ (responses ws₂ s₂)[k₂]? = some r₂ ∧
      Conforms w r₁ ∧ rspCause r₁ = rspCause r₂ ∧ (rspCause r₁ = 0 → r₁ = r₂)

/-- A host that issues no reserved op code and no `D2A` with `b = 0` gets no fault, and a host that issues one gets a
fault in that response (70_reset_and_hazards.md R83). The form of a run is log entry 11. -/
def Obligations.HostDutyDecidesFaults : Prop :=
  ∀ (ws : List CmdWord) (s : State), (responses ws s).map faultFree = ws.map hostDuty

/-- A word that is the two's-complement pattern of a negative number is at least `2^31` and acts as angle 180
(70_reset_and_hazards.md R85; the pattern is the spec's general knowledge G1). -/
def Obligations.NegativePatternsActAsFullDeflection : Prop :=
  ∀ a b : Word, a.toInt < 0 → 2 ^ 31 ≤ a.toNat ∧
    Answers (encode (.a2p a b)) (rspPack 0 2500) ∧
    ∃ y, Answers (encode (.a2d a b)) (rspPack 0 y) ∧ Answers (encode (.a2d 180 b)) (rspPack 0 y)

/-! ### Assembler -/

/-- The assembler refuses exactly the lines with a literal outside `0 .. 2^32 - 1`, and what it accepts is the word of
the instruction, with `b = 0` for `A2P` (30_encoding.md R36). -/
def Obligations.AssemblerChecksLiterals : Prop :=
  (∀ l : AsmLine, (∃ w, assemble l = .ok w) ↔ lineWellFormed l = true) ∧
  (∀ (a : Int) (w : CmdWord), assemble (.a2p a) = .ok w →
    (cmdOp w).toNat = 0 ∧ ((cmdA w).toNat : Int) = a ∧ cmdB w = 0) ∧
  (∀ (a b : Int) (w : CmdWord), assemble (.a2d a b) = .ok w →
    (cmdOp w).toNat = 1 ∧ ((cmdA w).toNat : Int) = a ∧ ((cmdB w).toNat : Int) = b) ∧
  (∀ (a b : Int) (w : CmdWord), assemble (.d2a a b) = .ok w →
    (cmdOp w).toNat = 2 ∧ ((cmdA w).toNat : Int) = a ∧ ((cmdB w).toNat : Int) = b)

/-- A disassembled line is well-formed and assembles to the word it came from, unless that word is an `A2P` with an
ignored `b` other than 0, which the disassembler shows (30_encoding.md R36); only the reserved encoding has no line. -/
def Obligations.DisassembledLinesAssemble : Prop :=
  ∀ w : CmdWord,
    (cmdOp w = 3 → disassemble w = .error .reservedOp) ∧
    (cmdOp w ≠ 3 → ∃ l c, disassemble w = .ok (l, c) ∧ lineWellFormed l = true ∧
      (c = none → assemble l = .ok w) ∧
      (∀ b, c = some b → cmdOp w = 0 ∧ b = cmdB w ∧ b ≠ 0 ∧
        assemble l = .ok (encode (.a2p (cmdA w) 0))))

/-- A written line is read back as itself, whatever its literals, with a comment after it or none (30_encoding.md R36;
the blanks and the decimal digits are the model's, log entry 13). -/
def Obligations.WrittenLinesReadBack : Prop :=
  ∀ (l : AsmLine) (comment : List Char),
    readLine (lineText l) = .ok (some l) ∧
    readLine (lineText l ++ [' ', ';'] ++ comment) = .ok (some l)
end

