-- ==== Sys2Proof/Laws/Arith.lean ====
section
/-! SUPPORT. The arithmetic of the three operations in plain numbers, and that each result fits the result field. -/

namespace Sys2Proof.Machine

open Sys2Proof

/-- Saturating subtraction is subtraction of natural numbers. -/
theorem satsub_eq (u v : Nat) : satsub u v = u - v := by
  unfold satsub; split <;> omega

theorem clamp180_eq (v : Nat) : clamp180 v = min v 180 := rfl

/-- The formula of R40. -/
theorem a2p_eq (angle : Nat) : a2p angle = 500 + min angle 180 * 2000 / 180 := rfl

/-- The formula of R50. -/
theorem a2d_eq (angle maxDuty : Nat) :
    a2d angle maxDuty = min ((500 + min angle 180 * 2000 / 180) * maxDuty / 20000) maxDuty := rfl

/-- The second stage of R60. -/
theorem pulseToAngle_eq (p : Nat) : pulseToAngle p = min ((p - 500) * 180 / 2000) 180 := by
  unfold pulseToAngle
  rw [satsub_eq, clamp180_eq]; rfl

/-- The formula of R60. -/
theorem d2a_eq (duty maxDuty : Nat) :
    d2a duty maxDuty = min ((duty * 20000 / maxDuty - 500) * 180 / 2000) 180 :=
  pulseToAngle_eq _

theorem a2p_fits (angle : Nat) : a2p angle < 2 ^ 32 := by
  rw [a2p_eq]; omega

theorem a2d_fits (angle : Nat) (b : Word) : a2d angle b.toNat < 2 ^ 32 := by
  have := b.isLt
  rw [a2d_eq]; omega

theorem d2a_fits (duty maxDuty : Nat) : d2a duty maxDuty < 2 ^ 32 := by
  rw [d2a_eq]; omega

/-- `zext_32` leaves a number that fits unchanged. -/
theorem zext32_toNat {v : Nat} (h : v < 2 ^ 32) : (zext32 v).toNat = v := by
  simpa [zext32] using h

@[simp] theorem zext32_a2p_toNat (angle : Nat) : (zext32 (a2p angle)).toNat = a2p angle :=
  zext32_toNat (a2p_fits angle)

@[simp] theorem zext32_a2d_toNat (angle : Nat) (b : Word) :
    (zext32 (a2d angle b.toNat)).toNat = a2d angle b.toNat :=
  zext32_toNat (a2d_fits angle b)

@[simp] theorem zext32_d2a_toNat (duty maxDuty : Nat) :
    (zext32 (d2a duty maxDuty)).toNat = d2a duty maxDuty :=
  zext32_toNat (d2a_fits duty maxDuty)

/-- A word other than 0 is a positive number. -/
theorem toNat_pos {b : Word} (h : b ≠ 0) : 0 < b.toNat :=
  Nat.pos_of_ne_zero fun h0 => h (BitVec.eq_of_toNat_eq h0)

@[simp] theorem operandValue_eq (x : Word) : operandValue x = x.toNat := rfl

end Sys2Proof.Machine
end

