-- ==== Sys2Proof/Laws/Encoding.lean ====
section
/-! SUPPORT. The fields of packed words, and what the decoder answers for each op code. -/

namespace Sys2Proof

@[simp] theorem cmdOp_cmdPack (op : OpCode) (b a : Word) : cmdOp (cmdPack op b a) = op := by
  apply BitVec.eq_of_getElem_eq
  intro i hi
  simp only [cmdOp, cmdPack, BitVec.getElem_extractLsb', BitVec.getLsbD_append]
  rw [if_neg (by omega), if_neg (by omega)]
  simp [show 64 + i - 32 - 32 = i by omega, BitVec.getLsbD_eq_getElem hi]

@[simp] theorem cmdB_cmdPack (op : OpCode) (b a : Word) : cmdB (cmdPack op b a) = b := by
  apply BitVec.eq_of_getElem_eq
  intro i hi
  simp only [cmdB, cmdPack, BitVec.getElem_extractLsb', BitVec.getLsbD_append]
  rw [if_neg (by omega), if_pos (by omega)]
  simp [BitVec.getLsbD_eq_getElem hi]

@[simp] theorem cmdA_cmdPack (op : OpCode) (b a : Word) : cmdA (cmdPack op b a) = a := by
  apply BitVec.eq_of_getElem_eq
  intro i hi
  simp only [cmdA, cmdPack, BitVec.getElem_extractLsb', BitVec.getLsbD_append]
  rw [if_pos (by omega)]
  simp [BitVec.getLsbD_eq_getElem hi]

/-- A command word is its three fields. -/
theorem cmdPack_fields (w : CmdWord) : cmdPack (cmdOp w) (cmdB w) (cmdA w) = w := by
  apply BitVec.eq_of_getElem_eq
  intro i hi
  simp only [cmdOp, cmdB, cmdA, cmdPack]
  rw [← BitVec.getLsbD_eq_getElem, ← BitVec.getLsbD_eq_getElem]
  simp only [BitVec.getLsbD_append, BitVec.getLsbD_extractLsb']
  split
  · simp [*]
  · split
    · rw [show 32 + (i - 32) = i by omega]; simp [*]
    · rw [show 64 + (i - 32 - 32) = i by omega]; simp; omega

/-- Every op code is one of the four. -/
theorem opCode_cases (op : OpCode) : op = 0 ∨ op = 1 ∨ op = 2 ∨ op = 3 := by
  revert op; decide

theorem decode_op0 {w : CmdWord} (h : cmdOp w = 0) : decode w = .ok (.a2p (cmdA w) (cmdB w)) := by
  simp [decode, h]

theorem decode_op1 {w : CmdWord} (h : cmdOp w = 1) : decode w = .ok (.a2d (cmdA w) (cmdB w)) := by
  simp [decode, h]

theorem decode_op2 {w : CmdWord} (h : cmdOp w = 2) : decode w = .ok (.d2a (cmdA w) (cmdB w)) := by
  simp [decode, h]

theorem decode_op3 {w : CmdWord} (h : cmdOp w = 3) : decode w = .error .reservedOp := by
  simp [decode, h]

end Sys2Proof

namespace Sys2Proof.Machine

open Sys2Proof

@[simp] theorem rspCause_rspPack (c : CauseCode) (y : Word) : rspCause (rspPack c y) = c := by
  apply BitVec.eq_of_getElem_eq
  intro i hi
  simp only [rspCause, rspPack, BitVec.getElem_extractLsb', BitVec.getLsbD_append]
  rw [if_neg (by omega)]
  simp [BitVec.getLsbD_eq_getElem hi]

@[simp] theorem rspY_rspPack (c : CauseCode) (y : Word) : rspY (rspPack c y) = y := by
  apply BitVec.eq_of_getElem_eq
  intro i hi
  simp only [rspY, rspPack, BitVec.getElem_extractLsb', BitVec.getLsbD_append]
  rw [if_pos (by omega)]
  simp [BitVec.getLsbD_eq_getElem hi]

end Sys2Proof.Machine
end

