-- ==== Sys2Proof/Laws/State.lean ====
section
/-! SUPPORT. One lemma per field per update of the state. -/

namespace Sys2Proof.Machine

open Sys2Proof

variable (s : State) (y : Nat) (c : Cause) (w : CmdWord) (n v : Nat)

@[simp] theorem respond_cmd : (s.respond y).cmd = s.cmd := rfl
@[simp] theorem respond_rsp : (s.respond y).rsp = rspPack 0 (zext32 y) := rfl
@[simp] theorem respond_draws : (s.respond y).draws = s.draws := rfl

@[simp] theorem raise_cmd : (s.raise c).cmd = s.cmd := rfl
@[simp] theorem raise_rsp :
    (s.raise c).rsp = rspPack (causeCode c) (Config.anyXlen s.draws) := rfl
@[simp] theorem raise_draws : (s.raise c).draws = s.draws + 1 := rfl

@[simp] theorem unsettle_cmd : s.unsettle.cmd = s.cmd := rfl
@[simp] theorem unsettle_rsp : s.unsettle.rsp = Config.unsettledRsp s.draws := rfl
@[simp] theorem unsettle_draws : s.unsettle.draws = s.draws + 1 := rfl

@[simp] theorem present_cmd : (s.present w).cmd = some w := rfl
@[simp] theorem present_rsp : (s.present w).rsp = Config.unsettledRsp s.draws := rfl
@[simp] theorem present_draws : (s.present w).draws = s.draws + 1 := rfl

@[simp] theorem release_cmd : s.release.cmd = none := rfl
@[simp] theorem release_rsp : s.release.rsp = Config.unsettledRsp s.draws := rfl
@[simp] theorem release_draws : s.release.draws = s.draws + 1 := rfl

@[simp] theorem withFetchWord_cmd : (s.withFetchWord n v).cmd = tableWord n v := rfl
@[simp] theorem withFetchWord_rsp : (s.withFetchWord n v).rsp = s.rsp := rfl
@[simp] theorem withFetchWord_draws : (s.withFetchWord n v).draws = s.draws := rfl

@[simp] theorem reset_cmd : State.reset.cmd = none := rfl
@[simp] theorem reset_rsp : State.reset.rsp = Config.unsettledRsp 0 := rfl
@[simp] theorem reset_draws : State.reset.draws = 1 := rfl

@[simp] theorem causeCode_ok : causeCode .ok = 0 := rfl
@[simp] theorem causeCode_illegalOp : causeCode .illegalOp = 1 := rfl
@[simp] theorem causeCode_divZero : causeCode .divZero = 2 := rfl

end Sys2Proof.Machine
end

