-- ==== Sys2Proof/Laws/Step.lean ====
section
/-! SUPPORT. What each meaning, a step and a run can do, said once. -/

namespace Sys2Proof.Machine

open Sys2Proof

theorem execA2p_eq (a b : Word) (s : State) : execA2p a b s = .next (s.respond (a2p a.toNat)) := rfl

theorem execA2d_eq (a b : Word) (s : State) :
    execA2d a b s = .next (s.respond (a2d a.toNat b.toNat)) := rfl

theorem execD2a_eq (a b : Word) (s : State) :
    execD2a a b s = .next (if b = 0 then s.raise .divZero else s.respond (d2a a.toNat b.toNat)) := by
  have h : b.toNat = 0 ↔ b = 0 := by
    rw [← BitVec.toNat_inj]; rfl
  unfold execD2a
  simp only [operandValue_eq, h]
  split <;> rfl

/-- The next state of a transaction with the settled command word `w` (R75). -/
theorem serve_eq (w : CmdWord) (s : State) :
    serve w s = .next (
      if cmdOp w = 0 then s.respond (a2p (cmdA w).toNat)
      else if cmdOp w = 1 then s.respond (a2d (cmdA w).toNat (cmdB w).toNat)
      else if cmdOp w = 2 then
        if cmdB w = 0 then s.raise .divZero else s.respond (d2a (cmdA w).toNat (cmdB w).toNat)
      else s.raise .illegalOp) := by
  unfold serve
  rcases opCode_cases (cmdOp w) with h | h | h | h
  · rw [decode_op0 h, h]; rfl
  · rw [decode_op1 h, h]; rfl
  · rw [decode_op2 h, h]; exact execD2a_eq _ _ _
  · rw [decode_op3 h, h]; rfl

theorem step_settled {s : State} {w : CmdWord} (h : s.cmd = some w) : step s = serve w s := by
  simp [step, h]

theorem step_unsettled {s : State} (h : s.cmd = none) : step s = .next s.unsettle := by
  simp [step, h, serveUnsettled]

/-- Everything a step can do. -/
theorem step_cases {s t : State} (h : step s = .next t) :
    (s.cmd = none ∧ t = s.unsettle) ∨
    ∃ w, s.cmd = some w ∧
      ((cmdOp w = 0 ∧ t = s.respond (a2p (cmdA w).toNat)) ∨
       (cmdOp w = 1 ∧ t = s.respond (a2d (cmdA w).toNat (cmdB w).toNat)) ∨
       (cmdOp w = 2 ∧ cmdB w ≠ 0 ∧ t = s.respond (d2a (cmdA w).toNat (cmdB w).toNat)) ∨
       (cmdOp w = 2 ∧ cmdB w = 0 ∧ t = s.raise .divZero) ∨
       (cmdOp w = 3 ∧ t = s.raise .illegalOp)) := by
  cases hc : s.cmd with
  | none =>
    rw [step_unsettled hc] at h
    exact .inl ⟨rfl, by injection h with h; exact h.symm⟩
  | some w =>
    rw [step_settled hc, serve_eq] at h
    injection h with h
    refine .inr ⟨w, rfl, ?_⟩
    rcases opCode_cases (cmdOp w) with h0 | h0 | h0 | h0 <;> simp only [h0] at h ⊢
    · simp [← h]
    · simp [← h]
    · by_cases hb : cmdB w = 0
      · rw [if_pos hb] at h; exact .inr (.inr (.inr (.inl ⟨trivial, hb, h.symm⟩)))
      · rw [if_neg hb] at h; exact .inr (.inr (.inl ⟨trivial, hb, h.symm⟩))
    · simp [← h]

theorem transact_eq (w : CmdWord) (s : State) : transact w s = serve w (s.present w) := rfl

@[simp] theorem responses_nil (s : State) : responses [] s = [] := rfl

theorem responses_cons {w : CmdWord} {ws : List CmdWord} {s t : State} (h : transact w s = .next t) :
    responses (w :: ws) s = t.rsp :: responses ws t := by
  simp [responses, runWords, h]

end Sys2Proof.Machine
end

