-- ==== Sys2Proof/Laws/Answers.lean ====
section
/-! SUPPORT. Which response each encoded instruction is answered with, in the words of `Answers`. -/

namespace Sys2Proof.Machine

open Sys2Proof

/-- A word whose service never depends on the state is answered with one response. -/
theorem answers_iff_of_serve {w : CmdWord} {r₀ : RspWord}
    (h : ∀ s, ∃ t, serve w s = .next t ∧ t.rsp = r₀) (r : RspWord) : Answers w r ↔ r = r₀ := by
  constructor
  · intro hw
    obtain ⟨t, ht, hr⟩ := hw State.reset
    obtain ⟨t', ht', hr'⟩ := h { State.reset with cmd := some w }
    rw [step_settled rfl, ht'] at ht
    injection ht with ht
    rw [← hr, ← ht, hr']
  · rintro rfl s
    rw [step_settled rfl]
    exact h _

theorem answers_a2p (a b : Word) (r : RspWord) :
    Answers (encode (.a2p a b)) r ↔ r = rspPack 0 (zext32 (a2p a.toNat)) :=
  answers_iff_of_serve (fun s => ⟨_, serve_eq _ s, by simp [encode]⟩) r

theorem answers_a2d (a b : Word) (r : RspWord) :
    Answers (encode (.a2d a b)) r ↔ r = rspPack 0 (zext32 (a2d a.toNat b.toNat)) :=
  answers_iff_of_serve (fun s => ⟨_, serve_eq _ s, by simp [encode]⟩) r

theorem answers_d2a {a b : Word} (hb : b ≠ 0) (r : RspWord) :
    Answers (encode (.d2a a b)) r ↔ r = rspPack 0 (zext32 (d2a a.toNat b.toNat)) :=
  answers_iff_of_serve (fun s => ⟨_, serve_eq _ s, by simp [encode, show ¬b = 0#32 from hb]⟩) r

end Sys2Proof.Machine
end

