-- ==== Sys2Proof/Laws/PerInstr.lean ====
section
/-! SUPPORT. What holds of every instruction as syntax, one lemma per constructor. -/

namespace Sys2Proof.Laws.EncodeFields

open Sys2Proof

/-- The op code of an instruction (30_encoding.md R32). -/
def opOf : Instr → OpCode
  | .a2p _ _ => 0
  | .a2d _ _ => 1
  | .d2a _ _ => 2

/-- Operand `a` of an instruction. -/
def aOf : Instr → Word
  | .a2p a _ => a
  | .a2d a _ => a
  | .d2a a _ => a

/-- Operand `b` of an instruction. -/
def bOf : Instr → Word
  | .a2p _ b => b
  | .a2d _ b => b
  | .d2a _ b => b

/-- The encoded word holds the op code and both operands in their fields (R30), and the op code is not the reserved
one (R34). -/
def Statement (i : Instr) : Prop :=
  cmdOp (encode i) = opOf i ∧ cmdA (encode i) = aOf i ∧ cmdB (encode i) = bOf i ∧ opOf i ≠ 3

theorem a2p (a b : Word) : Statement (.a2p a b) :=
  ⟨cmdOp_cmdPack _ _ _, cmdA_cmdPack _ _ _, cmdB_cmdPack _ _ _, by simp [opOf]⟩

theorem a2d (a b : Word) : Statement (.a2d a b) :=
  ⟨cmdOp_cmdPack _ _ _, cmdA_cmdPack _ _ _, cmdB_cmdPack _ _ _, by simp [opOf]⟩

theorem d2a (a b : Word) : Statement (.d2a a b) :=
  ⟨cmdOp_cmdPack _ _ _, cmdA_cmdPack _ _ _, cmdB_cmdPack _ _ _, by simp [opOf]⟩

end Sys2Proof.Laws.EncodeFields
end

