-- ==== Sys2Proof/Tests/Slice0.lean ====
section
/-! SUPPORT. Tests of one step each, with results from 95_test_vectors.md, and for every obligation that has hypotheses a
state and operands that meet them. -/

namespace Sys2Proof.Tests

open Sys2Proof Sys2Proof.Machine

/-- A state with a settled command word. -/
def portState (w : CmdWord) : State := { cmd := some w, rsp := 0, draws := 0 }

/-- The response port after a step. -/
def rspAfter (s : State) : Option RspWord :=
  match step s with
  | .next t => some t.rsp
  | _ => none

/-! ### Well-formedness: an ill-formed line for each check, refused (30_encoding.md R36) -/

theorem test_refuses_negative_literal :
    lineWellFormed (.a2p (-1)) = false ∧ assemble (.a2p (-1)) = .error .negativeLiteral := by decide

theorem test_refuses_literal_too_large :
    lineWellFormed (.a2d 90 4294967296) = false ∧
    assemble (.a2d 90 4294967296) = .error .literalTooLarge := by decide

theorem test_refuses_second_literal_of_d2a :
    lineWellFormed (.d2a 0 (-5)) = false ∧ assemble (.d2a 0 (-5)) = .error .negativeLiteral := by decide

theorem test_accepts_largest_literal :
    assemble (.a2p 4294967295) = .ok 0x0_00000000_FFFFFFFF#66 := by decide

/-! ### Decoding words written out from 30_encoding.md R30 and R32 -/

theorem test_decode_a2p : decode 0b00_00000000000000000000000000000000_00000000000000000000000001011010#66 =
    .ok (.a2p 90 0) := by decide

theorem test_decode_a2p_keeps_ignored_b : decode 0x0_DEADBEEF_00000000#66 = .ok (.a2p 0 0xDEADBEEF) := by
  decide

theorem test_decode_a2d : decode 0b01_00000000000000000000010000000000_00000000000000000000000001011010#66 =
    .ok (.a2d 90 1024) := by decide

theorem test_decode_d2a : decode 0b10_00000000000000000000010000000000_00000000000000000000000001001100#66 =
    .ok (.d2a 76 1024) := by decide

theorem test_decode_reserved : decode 0x3_00000400_0000005A#66 = .error .reservedOp := by decide

theorem test_encode : encode (.a2p 90 0) = 0x0_00000000_0000005A#66 ∧
    encode (.a2d 90 1024) = 0x1_00000400_0000005A#66 ∧
    encode (.d2a 76 1024) = 0x2_00000400_0000004C#66 := by decide

theorem test_decodeTableWord : decodeTableWord 72 0x1_00000400_0000005A = some (.a2d 90 1024) ∧
    decodeTableWord 72 0x3_00000000_00000000 = none ∧ decodeTableWord 72 (2 ^ 66) = none ∧
    decodeTableWord 64 0x00000400_0000005A = some (.a2p 90 1024) := by decide

/-- The first step after reset with a word placed runs that word's instruction. -/
theorem test_withFetchWord : step (State.reset.withFetchWord 72 0x1_00000400_0000005A) =
    exec (.a2d 90 1024) (State.reset.withFetchWord 72 0x1_00000400_0000005A) := rfl

/-! ### One step of each operation (95_test_vectors.md sections 2.1 to 2.3) -/

theorem test_a2p_truncates : rspAfter (portState 0x0_00000000_000000B3#66) = some 0x0_000009B8#34 := by decide

theorem test_a2p_clamps_and_ignores_b :
    rspAfter (portState 0x0_FFFFFFFF_FFFFFFFF#66) = some 0x0_000009C4#34 := by decide

theorem test_a2d_truncates_twice : rspAfter (portState 0x1_00000400_00000006#66) = some 0x0_0000001C#34 := by
  decide

theorem test_a2d_is_exact_past_32_bits :
    rspAfter (portState 0x1_FFFFFFFF_FFFFFFFF#66) = some 0x0_1FFFFFFF#34 := by decide

theorem test_d2a_saturates_below_500 :
    rspAfter (portState 0x2_00010000_00000666#66) = some 0x0_00000000#34 := by decide

theorem test_d2a_near_the_upper_clamp :
    rspAfter (portState 0x2_FFFFFFFF_1FFFFFFF#66) = some 0x0_000000B3#34 := by decide

/-! ### The two faults, compared in the cause field only (95_test_vectors.md section 2.5) -/

theorem test_d2a_zero_zero_faults :
    (rspAfter (portState 0x2_00000000_00000000#66)).map rspCause = some 2 := by
  show some (rspCause (rspPack 2 _)) = some 2
  rw [rspCause_rspPack]

theorem test_a2d_zero_resolution_is_no_fault :
    rspAfter (portState 0x1_00000000_0000005A#66) = some 0x0_00000000#34 := by decide

theorem test_reserved_op_faults :
    (rspAfter (portState 0x3_00000400_0000005A#66)).map rspCause = some 1 := by
  show some (rspCause (rspPack 1 _)) = some 1
  rw [rspCause_rspPack]

/-! ### The assembler's texts (30_encoding.md R36) -/

theorem test_readLine : readLine "A2D  90, 0x400 ; angle".toList = .ok (some (.a2d 90 1024)) ∧
    readLine "A2P -1".toList = .ok (some (.a2p (-1))) ∧ readLine " ; only a comment".toList = .ok none ∧
    readLine "SUB 1, 2".toList = .error .unknownMnemonic ∧
    readLine "D2A 76".toList = .error .wrongOperands ∧ readLine "A2P 9Z".toList = .error .badLiteral := by
  decide

/-- The model's choice of log entry 13: a literal holds no digit separator. -/
theorem test_readLine_refuses_digit_separator :
    readLine "A2P 0x0_5A".toList = .error .badLiteral := by decide

theorem test_disassemble :
    disassemble 0x0_00000400_0000005A#66 = .ok (.a2p 90, some 1024) ∧
    disassemble 0x2_00000400_0000004C#66 = .ok (.d2a 76 1024, none) := by decide

theorem test_response_text :
    (rspText 0x0_0000004C#34).map responseText = some "-> 76".toList ∧
    (rspText 0x1_00000000#34).map responseText = some "-> fault ILLEGAL_OP".toList ∧
    (rspText 0x2_00000000#34).map responseText = some "-> fault DIV_ZERO".toList ∧
    rspText 0x3_00000000#34 = none := by decide

/-! ### A run: program P2 of 95_test_vectors.md, first two transactions -/

theorem test_run_roundtrip :
    responses [0x1_00000400_0000005A#66, 0x2_00000400_0000004C#66] State.reset =
      [0x0_0000004C#34, 0x0_00000058#34] := rfl

/-! ### Witnesses: the hypotheses of each obligation can be met -/

theorem witness_EncodeOfDecode : decode 0x1_00000400_0000005A#66 = .ok (.a2d 90 1024) := by decide

theorem witness_ResultsFitTheResponseWord :
    (rspAfter (portState 0x0_00000000_000000B4#66)).map rspCause = some 0 ∧
    (rspAfter (portState 0x1_FFFFFFFF_000000B4#66)).map rspCause = some 0 ∧
    (rspAfter (portState 0x2_00000400_00000080#66)).map rspCause = some 0 ∧
    cmdOp 0x0_00000000_000000B4#66 = 0 ∧ cmdOp 0x1_FFFFFFFF_000000B4#66 = 1 ∧
    cmdOp 0x2_00000400_00000080#66 = 2 := by decide

theorem witness_StepRunsTheDecodedInstruction :
    (portState 0x2_00000400_0000004C#66).cmd = some 0x2_00000400_0000004C#66 ∧
    decode 0x2_00000400_0000004C#66 = .ok (.d2a 76 1024) := by decide

theorem witness_A2pGivesThePulseWidth :
    (portState 0x0_00000000_0000005A#66).cmd = some 0x0_00000000_0000005A#66 ∧
    cmdOp 0x0_00000000_0000005A#66 = 0 := by decide

theorem witness_A2dGivesTheDutyValue :
    (portState 0x1_00000400_0000005A#66).cmd = some 0x1_00000400_0000005A#66 ∧
    cmdOp 0x1_00000400_0000005A#66 = 1 := by decide

theorem witness_D2aGivesTheAngle :
    (1 : Word) ≠ 0 ∧ (portState 0x2_00000001_00000000#66).cmd = some 0x2_00000001_00000000#66 ∧
    cmdOp 0x2_00000001_00000000#66 = 2 ∧ cmdB 0x2_00000001_00000000#66 ≠ 0 ∧
    (portState 0x2_00000000_00000000#66).cmd = some 0x2_00000000_00000000#66 ∧
    cmdOp 0x2_00000000_00000000#66 = 2 ∧ cmdB 0x2_00000000_00000000#66 = 0 := by decide

/-- Also meets the hypotheses of FaultsDrawAFreshWord. -/
theorem witness_ReservedOpGivesIllegalOp :
    (portState 0x3_FFFFFFFF_FFFFFFFF#66).cmd = some 0x3_FFFFFFFF_FFFFFFFF#66 ∧
    cmdOp 0x3_FFFFFFFF_FFFFFFFF#66 = 3 := by decide

theorem witness_NothingElseIsAFault :
    180 < (181 : Word).toNat ∧ (0 : Word) = 0 ∧ (1 : Word) ≠ 0 ∧
    ((1024 : Word).toNat < (1025 : Word).toNat ∧ (1024 : Word) ≠ 0) ∧
    ((499 : Word).toNat * 20000 / (20000 : Word).toNat < 500 ∧ (20000 : Word) ≠ 0) := by decide

theorem witness_FaultLeavesNoTrace :
    ∃ t, step (portState 0x2_00000000_00000000#66) = .next t ∧ rspCause t.rsp ≠ 0 :=
  ⟨_, rfl, by
    show rspCause (rspPack 2 _) ≠ 0
    rw [rspCause_rspPack]; decide⟩

theorem witness_PulseWidthRange : (0 : Word) = 0 ∧ 180 ≤ (180 : Word).toNat := by decide

theorem witness_PulseWidthMonotone :
    ((179 : Word).toNat < (180 : Word).toNat ∧ (180 : Word).toNat ≤ 180 ∧
      (180 : Word).toNat = (179 : Word).toNat + 1 ∧ (180 : Word).toNat % 9 = 0) ∧
    ((0 : Word).toNat ≤ (1 : Word).toNat ∧ (1 : Word).toNat = (0 : Word).toNat + 1 ∧
      (1 : Word).toNat % 9 ≠ 0) ∧
    ((180 : Word).toNat ≤ (181 : Word).toNat ∧ 180 ≤ (180 : Word).toNat) := by decide

theorem witness_PulseWidthClosedForm : (180 : Word).toNat ≤ 180 := by decide

theorem witness_DutyValueRange : 180 ≤ (180 : Word).toNat := by decide

theorem witness_DutyValueMonotone :
    (1 : Word).toNat ≤ (2 : Word).toNat ∧ (39 : Word).toNat ≤ (40 : Word).toNat := by decide

theorem witness_LowPulseWidthGivesAngleZero :
    ((499 : Word).toNat * 20000 / (20000 : Word).toNat < 500 ∧ (20000 : Word) ≠ 0) ∧
    256#32 ∈ [256#32, 1024#32, 4096#32, 16384#32, 65536#32] := by decide

theorem witness_AngleEndConditions :
    (8 : Word) ≠ 0 ∧ 8 * (1 : Word).toNat ≥ (8 : Word).toNat ∧
    (20000 : Word) ≠ 0 ∧ 625 * (511 : Word).toNat < 16 * (20000 : Word).toNat := by decide

theorem witness_AngleMonotone :
    (1025 : Word) ≠ 0 ∧ (1024 : Word) ≠ 0 ∧ (76 : Word).toNat ≤ (77 : Word).toNat ∧
    (1024 : Word).toNat ≤ (1025 : Word).toNat ∧ (2 : Word) ≠ 0 ∧ (4 : Word) ≠ 0 ∧
    (1 : Word).toNat * 20000 / (2 : Word).toNat = (2 : Word).toNat * 20000 / (4 : Word).toNat := by decide

theorem witness_InverseDatapathsAreExact : (1 : Word) ≠ 0 := by decide

theorem witness_ThirtyTwoBitEnvelope :
    (1717986 : Word).toNat ≤ 1717986 ∧ (180 : Word) ≠ 0 ∧ (214748 : Word).toNat ≤ 214748 ∧
    (214748 : Word).toNat * 20000 / (180 : Word).toNat ≤ 23861429 ∧ 180 ≤ (180 : Word).toNat := by decide

theorem witness_RoundtripLosesLittle :
    (180 : Word).toNat ≤ 180 ∧ (1 : Word) ≠ 0 ∧ 1024 ≤ (1024 : Word).toNat ∧
    4096 ≤ (4096 : Word).toNat ∧ (256 : Word) = 256 := by decide

theorem witness_UnsettledPortShowsAnyValue : State.reset.cmd = none := rfl

theorem witness_FaultFreeResponseIsRepeatable :
    ∃ t, step (portState 0x2_00000001_00000000#66) = .next t ∧ rspCause t.rsp = 0 :=
  ⟨_, rfl, by decide⟩

/-- The command word of the two runs is fault-free, so the last clause is met as well. -/
theorem witness_TransactionsDoNotInteract :
    ([0x1_00000400_0000005A#66] : List CmdWord)[0]? = some 0x1_00000400_0000005A#66 ∧
    ([0x3_00000000_00000000#66, 0x1_00000400_0000005A#66] : List CmdWord)[1]? =
      some 0x1_00000400_0000005A#66 ∧
    (rspAfter (portState 0x1_00000400_0000005A#66)).map rspCause = some 0 := by decide

theorem witness_ResponseDependsOnTheCommandWordAlone :
    (rspAfter (portState 0x1_00000400_0000005A#66)).map rspCause = some 0 := by decide

theorem witness_NegativePatternsActAsFullDeflection : (0x80000000 : Word).toInt < 0 := by decide

theorem witness_AssemblerChecksLiterals :
    (∃ w, assemble (.a2p 4294967295) = .ok w) ∧ (∃ w, assemble (.a2d 0 4294967295) = .ok w) ∧
    (∃ w, assemble (.d2a 4294967295 0) = .ok w) :=
  ⟨⟨_, rfl⟩, ⟨_, rfl⟩, ⟨_, rfl⟩⟩

theorem witness_DisassembledLinesAssemble :
    cmdOp 0x3_00000000_00000000#66 = 3 ∧ cmdOp 0x2_00000000_00000000#66 ≠ 3 ∧
    disassemble 0x0_00000000_0000005A#66 = .ok (.a2p 90, none) ∧
    disassemble 0x0_00000001_0000005A#66 = .ok (.a2p 90, some 1) := by decide

end Sys2Proof.Tests
end

section
/-! Truncating division after multiplication (00_scope.md R7, R8), said without a division. -/

namespace Sys2Proof.Machine

open Sys2Proof

/-- The upper end of the pulse width (40_angle_to_pulse.md R42). -/
theorem a2p_le (angle : Nat) : a2p angle ≤ 2500 := by
  rw [a2p_eq]; omega

/-- The saturation of `A2D` never acts (41_angle_to_duty.md R51): the pulse width is below the period. -/
theorem a2d_eq_quotient (angle maxDuty : Nat) :
    a2d angle maxDuty = a2p angle * maxDuty / 20000 := by
  have hprod : a2p angle * maxDuty ≤ 2500 * maxDuty := Nat.mul_le_mul_right _ (a2p_le angle)
  have hquot : a2p angle * maxDuty / 20000 ≤ maxDuty := by omega
  rw [a2d_eq, ← a2p_eq]
  exact Nat.min_eq_left hquot

/-- The quotient in the pulse width brackets the exact product of `A2P`. -/
theorem a2p_brackets_product (angle : Nat) :
    500 ≤ a2p angle ∧ (a2p angle - 500) * 180 ≤ min angle 180 * 2000 ∧
      min angle 180 * 2000 < (a2p angle - 500 + 1) * 180 := by
  rw [a2p_eq, Nat.add_sub_cancel_left]
  exact ⟨Nat.le_add_right _ _, Nat.div_mul_le_self _ _,
    Nat.lt_mul_of_div_lt (Nat.lt_succ_self _) (by decide)⟩

/-- The duty value brackets the exact product of the truncated pulse width and the resolution. -/
theorem a2d_brackets_product (angle maxDuty : Nat) :
    a2d angle maxDuty * 20000 ≤ a2p angle * maxDuty ∧
      a2p angle * maxDuty < (a2d angle maxDuty + 1) * 20000 := by
  rw [a2d_eq_quotient]
  exact ⟨Nat.div_mul_le_self _ _, Nat.lt_mul_of_div_lt (Nat.lt_succ_self _) (by decide)⟩

/-- Settles O22: the two responses are the model's pulse width and duty value, whose quotients bracket their
products. -/
theorem divisionsTruncateAfterMultiplying : Obligations.DivisionsTruncateAfterMultiplying := by
  intro a b
  refine ⟨zext32 (a2p a.toNat), zext32 (a2d a.toNat b.toNat),
    (answers_a2p a b _).2 rfl, (answers_a2d a b _).2 rfl, ?_⟩
  rw [zext32_a2p_toNat, zext32_a2d_toNat]
  obtain ⟨hmin, hle, hlt⟩ := a2p_brackets_product a.toNat
  exact ⟨hmin, hle, hlt, a2d_brackets_product a.toNat b.toNat⟩

end Sys2Proof.Machine
end

section
/-! The block holds nothing between transactions (10_state.md R10, R17, R19): a command word alone decides what its
service writes to the response port. -/

namespace Sys2Proof.Machine

open Sys2Proof

/-- A raised fault shows in the cause field (60_exceptions.md R70, R71). -/
theorem rspCause_raise_ne_zero {c : Cause} (hc : c ≠ .ok) (s : State) :
    rspCause (s.raise c).rsp ≠ 0 := by
  rw [raise_rsp, rspCause_rspPack]
  cases c with
  | ok => exact absurd rfl hc
  | illegalOp => decide
  | divZero => decide

/-- A second result replaces the first. -/
@[simp] theorem respond_respond (s : State) (y₁ y₂ : Nat) :
    (s.respond y₁).respond y₂ = s.respond y₂ := rfl

/-- The word fixes whether its service responds or raises, and with which result or cause: both are chosen before
the state is. -/
theorem serve_responds_or_raises (w : CmdWord) :
    (∃ y, ∀ s, serve w s = .next (s.respond y)) ∨
    (∃ c, c ≠ .ok ∧ ∀ s, serve w s = .next (s.raise c)) := by
  rcases opCode_cases (cmdOp w) with h | h | h | h
  · exact .inl ⟨a2p (cmdA w).toNat, fun s => by simp [serve_eq, h]⟩
  · exact .inl ⟨a2d (cmdA w).toNat (cmdB w).toNat, fun s => by simp [serve_eq, h]⟩
  · by_cases hb : cmdB w = 0
    · exact .inr ⟨.divZero, by decide, fun s => by simp [serve_eq, h, hb]⟩
    · exact .inl ⟨d2a (cmdA w).toNat (cmdB w).toNat,
        fun s => by simp [serve_eq, h, show ¬cmdB w = 0#32 from hb]⟩
  · exact .inr ⟨.illegalOp, by decide, fun s => by simp [serve_eq, h]⟩

/-- Settles O36: a response without a fault is a result fixed by the word, and giving it twice is giving it once. -/
theorem faultFreeResponseIsRepeatable : Obligations.FaultFreeResponseIsRepeatable := by
  intro s t w hcmd hstep hcause
  rw [step_settled hcmd] at hstep
  rcases serve_responds_or_raises w with ⟨y, hserve⟩ | ⟨c, hc, hserve⟩
  · obtain rfl : s.respond y = t := by simpa [hserve] using hstep
    have hheld : (s.respond y).cmd = some w := hcmd
    rw [step_settled hheld, hserve, respond_respond]
  · obtain rfl : s.raise c = t := by simpa [hserve] using hstep
    exact absurd hcause (rspCause_raise_ne_zero hc s)

/-- Settles O37: from both states the word gives its one result, or raises its one cause. -/
theorem responseDependsOnTheCommandWordAlone : Obligations.ResponseDependsOnTheCommandWordAlone := by
  intro w s₁ s₂
  rw [step_settled rfl, step_settled rfl]
  rcases serve_responds_or_raises w with ⟨y, hserve⟩ | ⟨c, hc, hserve⟩
  · exact ⟨_, _, hserve _, hserve _, by simp, by simp⟩
  · exact ⟨_, _, hserve _, hserve _, by simp,
      fun hcause => absurd hcause (rspCause_raise_ne_zero hc _)⟩

/-- A port with no settled command word asks nothing of the response (93_implementation_defined.md U4). -/
theorem settled_of_cmd_none {s : State} (h : s.cmd = none) : s.Settled := by
  intro w hw
  simp [h] at hw

/-- Settles O34: reset leaves the command port without a settled word. -/
theorem resetHasASettledPort : Obligations.ResetHasASettledPort :=
  ⟨reset_cmd, settled_of_cmd_none reset_cmd⟩

end Sys2Proof.Machine
end

section
/-! Transactions do not interact (20_memory.md R25): a response of a run is the response of one step from some state with
its own command word on the port, and such a step gives what the rules say of the word. -/

namespace Sys2Proof.Machine

open Sys2Proof

/-- A step at a settled command word gives a response that the rules allow for it. -/
theorem step_conforms {s t : State} {w : CmdWord} (hcmd : s.cmd = some w) (hstep : step s = .next t) :
    Conforms w t.rsp := by
  rcases step_cases hstep with ⟨hnone, -⟩ | ⟨w', hw', hcases⟩
  · rw [hcmd] at hnone; cases hnone
  · obtain rfl : w = w' := Option.some.inj (hcmd.symm.trans hw')
    rcases hcases with ⟨hop, rfl⟩ | ⟨hop, rfl⟩ | ⟨hop, hb, rfl⟩ | ⟨hop, hb, rfl⟩ | ⟨hop, rfl⟩
    · simp [Conforms, hop, ← a2p_eq]
    · simp [Conforms, hop, ← a2d_eq]
    · have hpos := toNat_pos hb
      simp [Conforms, hop, ← d2a_eq, hpos.ne']
    · simp [Conforms, hop, hb]
    · simp [Conforms, hop]

/-- The response at a position of a run is that of a step with the word at this position on the command port: the other
transactions decide only the state it starts in. -/
theorem responses_getElem?_eq_step {ws : List CmdWord} {k : Nat} {w : CmdWord} (s : State)
    (hw : ws[k]? = some w) :
    ∃ s' : State, ∀ t, step { s' with cmd := some w } = .next t →
      (responses ws s)[k]? = some t.rsp := by
  induction ws generalizing s k with
  | nil => simp at hw
  | cons v vs ih =>
    cases k with
    | zero =>
      obtain rfl : v = w := by simpa using hw
      refine ⟨s.unsettle, fun t ht => ?_⟩
      have htransact : transact v s = .next t := ht
      rw [responses_cons htransact, List.getElem?_cons_zero]
    | succ k =>
      obtain ⟨t, htransact⟩ : ∃ t, transact v s = .next t := ⟨_, serve_eq v (s.present v)⟩
      rw [responses_cons htransact]
      exact ih t (by simpa using hw)

/-- Settles O39: each of the two responses is one step's response to the word, from two states that the word's answer
does not depend on. -/
theorem transactionsDoNotInteract : Obligations.TransactionsDoNotInteract := by
  intro ws₁ ws₂ s₁ s₂ k₁ k₂ w hw₁ hw₂
  obtain ⟨s₁', hresp₁⟩ := responses_getElem?_eq_step s₁ hw₁
  obtain ⟨s₂', hresp₂⟩ := responses_getElem?_eq_step s₂ hw₂
  obtain ⟨t₁, t₂, hstep₁, hstep₂, hcause, hrsp⟩ :=
    responseDependsOnTheCommandWordAlone w s₁' s₂'
  exact ⟨t₁.rsp, t₂.rsp, hresp₁ t₁ hstep₁, hresp₂ t₂ hstep₂, step_conforms rfl hstep₁, hcause, hrsp⟩

end Sys2Proof.Machine
end

section
/-! The command word as three fields and as a number (30_encoding.md R30, R32): packing them and reading them are
inverse, so the decoder and the encoder are. -/

namespace Sys2Proof

open Sys2Proof.Laws.EncodeFields

/-- An instruction's command word packs its op code and operands. -/
theorem encode_eq_cmdPack (i : Instr) : encode i = cmdPack (opOf i) (bOf i) (aOf i) := by
  cases i <;> rfl

@[simp] theorem cmdOp_encode (i : Instr) : cmdOp (encode i) = opOf i := by
  rw [encode_eq_cmdPack, cmdOp_cmdPack]

@[simp] theorem cmdA_encode (i : Instr) : cmdA (encode i) = aOf i := by
  rw [encode_eq_cmdPack, cmdA_cmdPack]

@[simp] theorem cmdB_encode (i : Instr) : cmdB (encode i) = bOf i := by
  rw [encode_eq_cmdPack, cmdB_cmdPack]

/-- Settles O2: the op code of the encoded word selects the constructor, and both operand fields come back whole. -/
theorem decodeOfEncode : Obligations.DecodeOfEncode := by
  intro i
  cases i with
  | a2p a b => rw [decode_op0 (cmdOp_encode _), cmdA_encode, cmdB_encode]; rfl
  | a2d a b => rw [decode_op1 (cmdOp_encode _), cmdA_encode, cmdB_encode]; rfl
  | d2a a b => rw [decode_op2 (cmdOp_encode _), cmdA_encode, cmdB_encode]; rfl

/-- A word that is not reserved is the encoding of an instruction. -/
theorem exists_encode_eq {w : CmdWord} (h : cmdOp w ≠ 3) : ∃ i, encode i = w := by
  rcases opCode_cases (cmdOp w) with hop | hop | hop | hop
  · exact ⟨.a2p (cmdA w) (cmdB w), by rw [encode, ← hop, cmdPack_fields]⟩
  · exact ⟨.a2d (cmdA w) (cmdB w), by rw [encode, ← hop, cmdPack_fields]⟩
  · exact ⟨.d2a (cmdA w) (cmdB w), by rw [encode, ← hop, cmdPack_fields]⟩
  · exact absurd hop h

/-- The decoder refuses the reserved op code only (R34). -/
theorem decode_eq_error_iff (w : CmdWord) : decode w = .error .reservedOp ↔ cmdOp w = 3 := by
  refine ⟨fun hdec => by_contra fun hop => ?_, decode_op3⟩
  obtain ⟨i, rfl⟩ := exists_encode_eq hop
  rw [decodeOfEncode i] at hdec
  cases hdec

/-- The decoder reads a word as an instruction exactly when it is that instruction's encoding. -/
theorem decode_eq_ok_iff (w : CmdWord) (i : Instr) : decode w = .ok i ↔ encode i = w := by
  refine ⟨fun hdec => ?_, fun henc => henc ▸ decodeOfEncode i⟩
  have hop : cmdOp w ≠ 3 := fun h3 => by rw [decode_op3 h3] at hdec; cases hdec
  obtain ⟨j, rfl⟩ := exists_encode_eq hop
  rw [decodeOfEncode j] at hdec
  cases hdec
  rfl

/-- Settles O3: a word that is not reserved is an encoding, so decoding it undoes the encoder. -/
theorem encodeOfDecode : Obligations.EncodeOfDecode :=
  ⟨fun w i => (decode_eq_ok_iff w i).1, decode_eq_error_iff⟩

/-- A word is the packing of three fields exactly when they are its fields. -/
theorem cmdPack_eq_iff (op : OpCode) (b a : Word) (w : CmdWord) :
    cmdPack op b a = w ↔ cmdOp w = op ∧ cmdB w = b ∧ cmdA w = a := by
  constructor
  · rintro rfl; simp
  · rintro ⟨rfl, rfl, rfl⟩; exact cmdPack_fields w

/-- The bitwise `and` of two command words is that of their fields. -/
theorem cmdPack_and_cmdPack (op op' : OpCode) (b b' a a' : Word) :
    cmdPack op b a &&& cmdPack op' b' a' = cmdPack (op &&& op') (b &&& b') (a &&& a') := by
  have houter : cmdPack op b a &&& cmdPack op' b' a' = ((op ++ b) &&& (op' ++ b')) ++ (a &&& a') :=
    BitVec.and_append
  rw [houter, BitVec.and_append, cmdPack]

/-- The mask of R32 keeps the op code and clears both operands. -/
theorem and_mask_eq_cmdPack (w : CmdWord) :
    w &&& 0x3_00000000_00000000#66 = cmdPack (cmdOp w) 0 0 := by
  have hmask : 0x3_00000000_00000000#66 = cmdPack 3 0 0 := by decide
  have hop : cmdOp w &&& 3 = cmdOp w := BitVec.and_allOnes
  calc w &&& 0x3_00000000_00000000#66
      = cmdPack (cmdOp w) (cmdB w) (cmdA w) &&& cmdPack 3 0 0 := by rw [cmdPack_fields, hmask]
    _ = cmdPack (cmdOp w &&& 3) (cmdB w &&& 0) (cmdA w &&& 0) := cmdPack_and_cmdPack ..
    _ = cmdPack (cmdOp w) 0 0 := by rw [hop]; simp

/-- The match test of R32 is a test of the op code. -/
theorem and_mask_eq_iff (w : CmdWord) (op : OpCode) :
    w &&& 0x3_00000000_00000000#66 = cmdPack op 0 0 ↔ cmdOp w = op := by
  rw [and_mask_eq_cmdPack, cmdPack_eq_iff]
  simp [eq_comm]

theorem exists_encode_a2p_eq_iff (w : CmdWord) : (∃ a b, encode (.a2p a b) = w) ↔ cmdOp w = 0 := by
  simp [encode, cmdPack_eq_iff]

theorem exists_encode_a2d_eq_iff (w : CmdWord) : (∃ a b, encode (.a2d a b) = w) ↔ cmdOp w = 1 := by
  simp [encode, cmdPack_eq_iff]

theorem exists_encode_d2a_eq_iff (w : CmdWord) : (∃ a b, encode (.d2a a b) = w) ↔ cmdOp w = 2 := by
  simp [encode, cmdPack_eq_iff]

/-- Settles O4: both the decoder and the test look at the op code alone. -/
theorem decodeFollowsMatchAndMask : Obligations.DecodeFollowsMatchAndMask := by
  intro w
  simp only [decode_eq_ok_iff, decode_eq_error_iff, exists_encode_a2p_eq_iff, exists_encode_a2d_eq_iff,
    exists_encode_d2a_eq_iff]
  exact ⟨(and_mask_eq_iff w 0).symm, (and_mask_eq_iff w 1).symm, (and_mask_eq_iff w 2).symm,
    (and_mask_eq_iff w 3).symm⟩

/-- Bit vectors side by side are a number with the left one in the higher place. -/
theorem toNat_append_eq_add {m n : Nat} (x : BitVec m) (y : BitVec n) :
    (x ++ y).toNat = x.toNat * 2 ^ n + y.toNat := by
  rw [BitVec.toNat_append, ← Nat.shiftLeft_add_eq_or_of_lt y.isLt, Nat.shiftLeft_eq]

/-- The number of a command word (R30). -/
theorem cmdPack_toNat (op : OpCode) (b a : Word) :
    (cmdPack op b a).toNat = op.toNat * 2 ^ 64 + b.toNat * 2 ^ 32 + a.toNat := by
  rw [cmdPack, toNat_append_eq_add, toNat_append_eq_add]
  omega

/-- Decoding to an instruction is having its number. -/
theorem decode_eq_ok_iff_toNat (w : CmdWord) (i : Instr) :
    decode w = .ok i ↔
      w.toNat = (opOf i).toNat * 2 ^ 64 + (bOf i).toNat * 2 ^ 32 + (aOf i).toNat := by
  rw [decode_eq_ok_iff, encode_eq_cmdPack, ← cmdPack_toNat, BitVec.toNat_inj, eq_comm]

/-- Settles O5: an instruction's encoding is that number. -/
theorem decodeReadsTheCommandNumber : Obligations.DecodeReadsTheCommandNumber :=
  fun w a b => ⟨decode_eq_ok_iff_toNat w (.a2p a b), decode_eq_ok_iff_toNat w (.a2d a b),
    decode_eq_ok_iff_toNat w (.d2a a b)⟩

/-- Settles O1: each word is the encoding of what it stands for, and the last has op code 3. -/
theorem wordsWrittenFromTheEncodingDecode : Obligations.WordsWrittenFromTheEncodingDecode := by
  refine ⟨(decode_eq_ok_iff _ _).2 ?_, (decode_eq_ok_iff _ _).2 ?_, (decode_eq_ok_iff _ _).2 ?_,
    decode_op3 ?_⟩ <;> decide

end Sys2Proof
end

section
/-! What a step leaves on the two ports (30_encoding.md R30, R31; 60_exceptions.md R71), from any state. -/

namespace Sys2Proof.Machine

open Sys2Proof

/-- Nothing stops the machine (R71). -/
theorem exists_step_eq_next (s : State) : ∃ t, step s = .next t := by
  cases hcmd : s.cmd with
  | none => exact ⟨_, step_unsettled hcmd⟩
  | some w => exact ⟨_, (step_settled hcmd).trans (serve_eq w s)⟩

/-- The command port is the host's. -/
theorem step_cmd {s t : State} (hstep : step s = .next t) : t.cmd = s.cmd := by
  rcases step_cases hstep with
    ⟨-, rfl⟩ | ⟨w, -, ⟨-, rfl⟩ | ⟨-, rfl⟩ | ⟨-, -, rfl⟩ | ⟨-, -, rfl⟩ | ⟨-, rfl⟩⟩ <;> rfl

/-- The port invariant holds after every step. -/
theorem step_settles {s t : State} (hstep : step s = .next t) : t.Settled :=
  fun _ hcmd => step_conforms ((step_cmd hstep).symm.trans hcmd) hstep

/-- Settles O33: the next state that every step answers meets the port invariant, whatever the state before it. -/
theorem everyStepSettlesTheResponsePort : Obligations.EveryStepSettlesTheResponsePort := by
  intro s
  obtain ⟨t, hstep⟩ := exists_step_eq_next s
  exact ⟨t, hstep, step_cmd hstep, step_settles hstep⟩

/-- Settles O7: a step serves the settled word, and serving a word that decodes is executing it. -/
theorem stepRunsTheDecodedInstruction : Obligations.StepRunsTheDecodedInstruction := by
  intro s w i hcmd hdec
  rw [step_settled hcmd, serve, hdec]

/-- The number of a response word (R31): the cause is what stands above the 32 bits of the result. -/
theorem rsp_toNat (r : RspWord) : r.toNat = (rspCause r).toNat * 2 ^ 32 + (rspY r).toNat := by
  have hr := r.isLt
  simp only [rspCause, rspY, BitVec.extractLsb'_toNat, Nat.shiftRight_eq_div_pow]
  omega

/-- The pulse width is at most an eighth of the period and the resolution is below `2^32`, which gives the bound of R31. -/
theorem a2d_lt (angle : Nat) (b : Word) : a2d angle b.toNat < 2 ^ 29 := by
  have hprod : a2p angle * b.toNat ≤ 2500 * b.toNat := Nat.mul_le_mul_right _ (a2p_le angle)
  have hb := b.isLt
  rw [a2d_eq_quotient]
  omega

/-- The angle is clamped (42_duty_to_angle.md R63). -/
theorem d2a_le (duty maxDuty : Nat) : d2a duty maxDuty ≤ 180 := by
  rw [d2a_eq]
  exact Nat.min_le_right _ _

/-- Settles O6: a response without a fault holds the result of its op code's formula. -/
theorem resultsFitTheResponseWord : Obligations.ResultsFitTheResponseWord := by
  refine ⟨rsp_toNat, fun s w => ?_⟩
  obtain ⟨t, hstep⟩ := exists_step_eq_next { s with cmd := some w }
  obtain ⟨hA2p, hA2d, hD2a, hDivZero, -⟩ := step_conforms rfl hstep
  refine ⟨t, hstep, fun hcause => ⟨fun hop => ?_, fun hop => ?_, fun hop => ?_⟩⟩
  · rw [(hA2p hop).2, ← a2p_eq]
    exact Nat.lt_of_le_of_lt (a2p_le _) (by decide)
  · rw [(hA2d hop).2, ← a2d_eq]
    exact a2d_lt _ _
  · have hb : (cmdB w).toNat ≠ 0 := fun h0 => absurd (hcause.symm.trans (hDivZero hop h0)) (by decide)
    rw [(hD2a hop hb).2, ← d2a_eq]
    exact Nat.lt_of_le_of_lt (d2a_le _ _) (by decide)

end Sys2Proof.Machine
end

section
/-! The assembler and the disassembler (30_encoding.md R36): the lines that assemble are those that a disassembler
writes, and they assemble to the instruction they were written for. -/

namespace Sys2Proof.Machine

open Sys2Proof Sys2Proof.Laws.EncodeFields

/-- The assembler reads a literal as the word whose value it is, and refuses a literal that is no word's. -/
theorem checkLiteral_eq_ok_iff (n : Int) (x : Word) : checkLiteral n = .ok x ↔ (x.toNat : Int) = n := by
  have hx := x.isLt
  unfold checkLiteral
  split
  · simp; omega
  · split
    · simp; omega
    · rw [Except.ok.injEq, ← BitVec.toNat_inj, BitVec.toNat_ofInt]
      omega

/-- The range check of R36 asks that the literal be some word's value. -/
theorem literalFits_iff (n : Int) : literalFits n = true ↔ ∃ x : Word, (x.toNat : Int) = n := by
  simp only [literalFits, Bool.and_eq_true, decide_eq_true_iff]
  constructor
  · rintro ⟨hnonneg, hle⟩
    exact ⟨BitVec.ofInt 32 n, by rw [BitVec.toNat_ofInt]; omega⟩
  · rintro ⟨x, rfl⟩
    have hx := x.isLt
    omega

theorem assemble_a2p_eq_ok_iff (a : Int) (w : CmdWord) :
    assemble (.a2p a) = .ok w ↔ ∃ x, checkLiteral a = .ok x ∧ encode (.a2p x 0) = w := by
  cases ha : checkLiteral a <;> simp [assemble, ha]

theorem assemble_a2d_eq_ok_iff (a b : Int) (w : CmdWord) :
    assemble (.a2d a b) = .ok w ↔
      ∃ x y, checkLiteral a = .ok x ∧ checkLiteral b = .ok y ∧ encode (.a2d x y) = w := by
  cases ha : checkLiteral a <;> cases hb : checkLiteral b <;> simp [assemble, ha, hb]

theorem assemble_d2a_eq_ok_iff (a b : Int) (w : CmdWord) :
    assemble (.d2a a b) = .ok w ↔
      ∃ x y, checkLiteral a = .ok x ∧ checkLiteral b = .ok y ∧ encode (.d2a x y) = w := by
  cases ha : checkLiteral a <;> cases hb : checkLiteral b <;> simp [assemble, ha, hb]

theorem lineOf_eq_a2p_iff (i : Instr) (a : Int) :
    lineOf i = (.a2p a, none) ↔ ∃ x : Word, (x.toNat : Int) = a ∧ i = .a2p x 0 := by
  cases i <;> simp [lineOf]

theorem lineOf_eq_a2d_iff (i : Instr) (a b : Int) :
    lineOf i = (.a2d a b, none) ↔
      ∃ x y : Word, (x.toNat : Int) = a ∧ (y.toNat : Int) = b ∧ i = .a2d x y := by
  cases i <;> simp [lineOf]

theorem lineOf_eq_d2a_iff (i : Instr) (a b : Int) :
    lineOf i = (.d2a a b, none) ↔
      ∃ x y : Word, (x.toNat : Int) = a ∧ (y.toNat : Int) = b ∧ i = .d2a x y := by
  cases i <;> simp [lineOf]

/-- A line assembles to a word exactly when it is the whole line, with nothing shown beside it, of the instruction
that the word encodes. -/
theorem assemble_eq_ok_iff (l : AsmLine) (w : CmdWord) :
    assemble l = .ok w ↔ ∃ i, lineOf i = (l, none) ∧ encode i = w := by
  cases l with
  | a2p a => simp [assemble_a2p_eq_ok_iff, checkLiteral_eq_ok_iff, lineOf_eq_a2p_iff]
  | a2d a b => simp [assemble_a2d_eq_ok_iff, checkLiteral_eq_ok_iff, lineOf_eq_a2d_iff, and_assoc]
  | d2a a b => simp [assemble_d2a_eq_ok_iff, checkLiteral_eq_ok_iff, lineOf_eq_d2a_iff, and_assoc]

/-- The well-formed lines are the lines of instructions. -/
theorem lineWellFormed_iff (l : AsmLine) : lineWellFormed l = true ↔ ∃ i, lineOf i = (l, none) := by
  cases l with
  | a2p a => simp [lineWellFormed, literalFits_iff, lineOf_eq_a2p_iff]
  | a2d a b => simp [lineWellFormed, literalFits_iff, lineOf_eq_a2d_iff]
  | d2a a b => simp [lineWellFormed, literalFits_iff, lineOf_eq_d2a_iff]

/-- Settles O42: a line that assembles is an instruction's line, and its word has that instruction's fields. -/
theorem assemblerChecksLiterals : Obligations.AssemblerChecksLiterals := by
  refine ⟨fun l => ?_, fun a w hasm => ?_, fun a b w hasm => ?_, fun a b w hasm => ?_⟩
  · simp [assemble_eq_ok_iff, lineWellFormed_iff]
  all_goals obtain ⟨i, hline, rfl⟩ := (assemble_eq_ok_iff _ _).1 hasm
  · obtain ⟨x, rfl, rfl⟩ := (lineOf_eq_a2p_iff _ _).1 hline
    simp [opOf, aOf, bOf]
  · obtain ⟨x, y, rfl, rfl, rfl⟩ := (lineOf_eq_a2d_iff _ _ _).1 hline
    simp [opOf, aOf, bOf]
  · obtain ⟨x, y, rfl, rfl, rfl⟩ := (lineOf_eq_d2a_iff _ _ _).1 hline
    simp [opOf, aOf, bOf]

theorem disassemble_encode (i : Instr) : disassemble (encode i) = .ok (lineOf i) := by
  rw [disassemble, decodeOfEncode]

theorem disassemble_reserved {w : CmdWord} (h : cmdOp w = 3) : disassemble w = .error .reservedOp := by
  rw [disassemble, decode_op3 h]

/-- The disassembler shows an operand beside the line only where `A2P` ignores one that is not 0. -/
theorem lineOf_eq_some_iff (i : Instr) (l : AsmLine) (b : Word) :
    lineOf i = (l, some b) ↔ ∃ a, i = .a2p a b ∧ b ≠ 0 ∧ lineOf (.a2p a 0) = (l, none) := by
  cases i with
  | a2p a b' =>
    by_cases hb : b' = b
    · subst hb; simp [lineOf, and_comm]
    · simp [lineOf, hb]
  | a2d a b' => simp [lineOf]
  | d2a a b' => simp [lineOf]

/-- The line a disassembler writes is always an instruction's own: that of the word's instruction, or, where an
ignored `b` is shown, that of the same `A2P` with `b = 0`. -/
theorem lineWellFormed_lineOf {i : Instr} {l : AsmLine} {c : Option Word} (h : lineOf i = (l, c)) :
    lineWellFormed l = true := by
  cases c with
  | none => exact (lineWellFormed_iff l).2 ⟨i, h⟩
  | some b =>
    obtain ⟨a, -, -, hline⟩ := (lineOf_eq_some_iff i l b).1 h
    exact (lineWellFormed_iff l).2 ⟨_, hline⟩

/-- Settles O43: a word that is not reserved encodes the instruction whose line is written. -/
theorem disassembledLinesAssemble : Obligations.DisassembledLinesAssemble := by
  refine fun w => ⟨disassemble_reserved, fun hop => ?_⟩
  obtain ⟨i, rfl⟩ := exists_encode_eq hop
  obtain ⟨l, c, hline⟩ : ∃ l c, lineOf i = (l, c) := ⟨_, _, rfl⟩
  refine ⟨l, c, by rw [disassemble_encode, hline], lineWellFormed_lineOf hline, ?_, ?_⟩
  · rintro rfl
    exact (assemble_eq_ok_iff _ _).2 ⟨i, hline, rfl⟩
  · rintro b rfl
    obtain ⟨a, rfl, hb, hline₀⟩ := (lineOf_eq_some_iff i l b).1 hline
    rw [cmdOp_encode, cmdB_encode, cmdA_encode]
    exact ⟨rfl, rfl, hb, (assemble_eq_ok_iff _ _).2 ⟨_, hline₀, rfl⟩⟩

end Sys2Proof.Machine
end

section
/-! Reading back what the assembler writes (30_encoding.md R36): the decimal digits of a literal spell its value, and
the blanks and commas of a line stand where the reader cuts. -/

namespace Sys2Proof.Machine

open Sys2Proof

/-! ### Literals -/

theorem hexDigit_of_isDigit {c : Char} (h : c.isDigit = true) : hexDigit c = some (c.toNat - 48) := by
  have hrange : '0' ≤ c ∧ c ≤ '9' := by
    simpa [Char.isDigit, Char.le_def] using h
  rw [hexDigit, if_pos hrange]

/-- A decimal digit is below 10. -/
theorem toNat_sub_lt_ten_of_isDigit {c : Char} (h : c.isDigit = true) : c.toNat - 48 < 10 := by
  simp only [Char.isDigit, Bool.and_eq_true, decide_eq_true_iff, UInt32.le_iff_toNat_le] at h
  have hle : c.toNat ≤ 57 := h.2
  omega

/-- Decimal digits spell the number that the library gives them. -/
theorem readDigits_ten {cs : List Char} (h : ∀ c ∈ cs, c.isDigit = true) (acc : Nat) :
    readDigits 10 acc cs = some (Nat.ofDigitChars 10 cs acc) := by
  induction cs generalizing acc with
  | nil => rfl
  | cons c cs ih =>
    obtain ⟨hc, hcs⟩ := List.forall_mem_cons.1 h
    have hstep : readDigits 10 acc (c :: cs) = readDigits 10 (acc * 10 + (c.toNat - 48)) cs := by
      simp only [readDigits, hexDigit_of_isDigit hc, toNat_sub_lt_ten_of_isDigit hc, if_true]
    rw [hstep, ih hcs, Nat.ofDigitChars_cons, Nat.mul_comm]
    rfl

theorem isDigit_of_mem_decimalText {c : Char} {n : Nat} (h : c ∈ decimalText n) : c.isDigit = true :=
  Nat.isDigit_of_mem_toDigits (by decide) (by decide) h

theorem decimalText_ne_nil (n : Nat) : decimalText n ≠ [] :=
  Nat.toDigits_ne_nil

/-- A number in decimal is no hexadecimal literal, and is read as itself. -/
theorem readUnsigned_decimalText (n : Nat) : readUnsigned (decimalText n) = some n := by
  have hdigits : ∀ c ∈ decimalText n, c.isDigit = true := fun _ => isDigit_of_mem_decimalText
  have hread : readDigits 10 0 (decimalText n) = some n := by
    rw [readDigits_ten hdigits, decimalText, Nat.ofDigitChars_ten_toDigits]
  unfold readUnsigned
  split
  case h_1 c cs heq => simp [heq] at hdigits
  case h_2 c cs _ heq => rwa [heq] at hread
  case h_3 heq => exact absurd heq (decimalText_ne_nil n)

/-- A literal is read as itself. -/
theorem readLiteral_literalText (n : Int) : readLiteral (literalText n) = .ok n := by
  cases n with
  | negSucc n => simp [literalText, readLiteral, readUnsigned_decimalText, Int.negSucc_eq]
  | ofNat n =>
    rw [literalText]
    unfold readLiteral
    split
    case h_1 cs heq =>
      have hminus : '-' ∈ decimalText n := by simp [heq]
      exact absurd (isDigit_of_mem_decimalText hminus) (by decide)
    case h_2 => simp [readUnsigned_decimalText]

/-- The characters a literal is written with. -/
def isLiteralChar (c : Char) : Bool := c == '-' || c.isDigit

theorem isLiteralChar_of_mem_literalText {c : Char} {n : Int} (h : c ∈ literalText n) :
    isLiteralChar c = true := by
  rw [isLiteralChar, Bool.or_eq_true, beq_iff_eq]
  cases n with
  | ofNat n => exact .inr (isDigit_of_mem_decimalText h)
  | negSucc n => exact (List.mem_cons.1 h).imp_right isDigit_of_mem_decimalText

theorem literalText_ne_nil (n : Int) : literalText n ≠ [] := by
  cases n with
  | ofNat n => exact decimalText_ne_nil n
  | negSucc n => exact List.cons_ne_nil _ _

/-- A character that no literal is written with stands in no literal. -/
theorem notMem_literalText {c : Char} (hc : isLiteralChar c = false) (n : Int) : c ∉ literalText n :=
  fun hmem => by simp [isLiteralChar_of_mem_literalText hmem] at hc

theorem isBlank_of_mem_literalText {c : Char} {n : Int} (h : c ∈ literalText n) : isBlank c = false := by
  have hspace : c ≠ ' ' := fun heq => notMem_literalText (by decide) n (heq ▸ h)
  have htab : c ≠ '\t' := fun heq => notMem_literalText (by decide) n (heq ▸ h)
  simp [isBlank, hspace, htab]

/-! ### Blanks and commas -/

theorem trimBlanks_cons_blank {c : Char} (hc : isBlank c = true) (cs : List Char) :
    trimBlanks (c :: cs) = trimBlanks cs := by
  rw [trimBlanks, List.dropWhile_cons_of_pos hc, trimBlanks]

theorem trimBlanks_concat_blank {c : Char} (hc : isBlank c = true) (cs : List Char) :
    trimBlanks (cs ++ [c]) = trimBlanks cs := by
  unfold trimBlanks
  rw [List.dropWhile_append]
  split
  case isTrue hempty => simp [List.isEmpty_iff.1 hempty, hc]
  case isFalse => simp [hc]

/-- A text with no blank at either end is left as it is. -/
theorem trimBlanks_eq_self {cs : List Char} (hne : cs ≠ []) (hhead : isBlank (cs.head hne) = false)
    (hlast : isBlank (cs.getLast hne) = false) : trimBlanks cs = cs := by
  have hfront : cs.dropWhile isBlank = cs := by
    rw [List.dropWhile_eq_self_iff]
    simpa [List.head_eq_getElem] using fun _ => hhead
  have hback : cs.reverse.dropWhile isBlank = cs.reverse := by
    rw [List.dropWhile_eq_self_iff]
    simpa [List.getLast_eq_getElem] using fun _ => hlast
  rw [trimBlanks, hfront, hback, List.reverse_reverse]

/-- An operand is cut out of a line with the space before it, which is no part of the literal. -/
theorem trimBlanks_space_literalText (n : Int) : trimBlanks (' ' :: literalText n) = literalText n := by
  rw [trimBlanks_cons_blank (by decide)]
  exact trimBlanks_eq_self (literalText_ne_nil n) (isBlank_of_mem_literalText (List.head_mem _))
    (isBlank_of_mem_literalText (List.getLast_mem _))

theorem splitCommas_of_notMem {cs : List Char} (h : ',' ∉ cs) : splitCommas cs = [cs] := by
  induction cs with
  | nil => rfl
  | cons c cs ih =>
    rw [List.mem_cons, not_or] at h
    obtain ⟨hc, hcs⟩ := h
    rw [splitCommas, if_neg (Ne.symm hc), ih hcs]

theorem splitCommas_append_comma {cs : List Char} (h : ',' ∉ cs) (ds : List Char) :
    splitCommas (cs ++ ',' :: ds) = cs :: splitCommas ds := by
  induction cs with
  | nil => rfl
  | cons c cs ih =>
    rw [List.mem_cons, not_or] at h
    obtain ⟨hc, hcs⟩ := h
    rw [List.cons_append, splitCommas, if_neg (Ne.symm hc), ih hcs]

theorem comma_notMem_space_literalText (n : Int) : ',' ∉ ' ' :: literalText n := by
  simp [notMem_literalText (show isLiteralChar ',' = false by decide)]

/-! ### Lines -/

/-- The mnemonic of a line. -/
def mnemonicText : AsmLine → List Char
  | .a2p _ => ['A', '2', 'P']
  | .a2d _ _ => ['A', '2', 'D']
  | .d2a _ _ => ['D', '2', 'A']

/-- What a line holds after its mnemonic: each operand with a space before it, and a comma between two. -/
def operandsText : AsmLine → List Char
  | .a2p a => ' ' :: literalText a
  | .a2d a b => (' ' :: literalText a) ++ ',' :: ' ' :: literalText b
  | .d2a a b => (' ' :: literalText a) ++ ',' :: ' ' :: literalText b

theorem lineText_eq (l : AsmLine) : lineText l = mnemonicText l ++ operandsText l := by
  cases l <;> simp [lineText, mnemonicText, operandsText]

/-- The operands of a written line are read back with its mnemonic. -/
theorem readOperands_operandsText (l : AsmLine) :
    readOperands (mnemonicText l) ((splitCommas (operandsText l)).map trimBlanks) = .ok l := by
  cases l with
  | a2p a =>
    rw [operandsText, splitCommas_of_notMem (comma_notMem_space_literalText a)]
    simp [readOperands, mnemonicText, trimBlanks_space_literalText, readLiteral_literalText]
  | a2d a b =>
    rw [operandsText, splitCommas_append_comma (comma_notMem_space_literalText a),
      splitCommas_of_notMem (comma_notMem_space_literalText b)]
    simp [readOperands, mnemonicText, trimBlanks_space_literalText, readLiteral_literalText]
  | d2a a b =>
    rw [operandsText, splitCommas_append_comma (comma_notMem_space_literalText a),
      splitCommas_of_notMem (comma_notMem_space_literalText b)]
    simp [readOperands, mnemonicText, trimBlanks_space_literalText, readLiteral_literalText]

/-- The reader cuts a line at its first blank, which is the one after the mnemonic. -/
theorem takeWhile_dropWhile_lineText (l : AsmLine) :
    (lineText l).takeWhile (fun c => !isBlank c) = mnemonicText l ∧
    (lineText l).dropWhile (fun c => !isBlank c) = operandsText l := by
  rw [lineText_eq]
  cases l <;> exact ⟨rfl, rfl⟩

theorem lineText_ne_nil (l : AsmLine) : lineText l ≠ [] := by
  cases l <;> exact List.cons_ne_nil _ _

/-- A line has no blank at its ends: a letter begins it and a literal ends it. -/
theorem trimBlanks_lineText (l : AsmLine) : trimBlanks (lineText l) = lineText l := by
  refine trimBlanks_eq_self (lineText_ne_nil l) ?_ ?_
  · cases l <;> rfl
  · obtain ⟨cs, n, htext⟩ : ∃ cs n, lineText l = cs ++ literalText n := by
      cases l <;> exact ⟨_, _, rfl⟩
    simp only [htext, List.getLast_append_of_ne_nil _ (literalText_ne_nil n)]
    exact isBlank_of_mem_literalText (List.getLast_mem _)

theorem semicolon_notMem_lineText (l : AsmLine) : ';' ∉ lineText l := by
  have hlit := notMem_literalText (show isLiteralChar ';' = false by decide)
  cases l <;> simp [lineText, hlit]

/-- A text whose code, without its comment and the blanks around it, is a written line is read as that line. -/
theorem readLine_of_code {text : List Char} {l : AsmLine}
    (hcode : trimBlanks (text.takeWhile (fun c => c != ';')) = lineText l) :
    readLine text = .ok (some l) := by
  obtain ⟨hmnemonic, hoperands⟩ := takeWhile_dropWhile_lineText l
  simp only [readLine, hcode, lineText_ne_nil, if_false, hmnemonic, hoperands, readOperands_operandsText]

/-- Settles O44: what stands before the comment, without the blank before it, is the written line. -/
theorem writtenLinesReadBack : Obligations.WrittenLinesReadBack := by
  intro l comment
  have hline : ∀ c ∈ lineText l, (c != ';') = true := fun c hc =>
    bne_iff_ne.2 fun heq => semicolon_notMem_lineText l (heq ▸ hc)
  constructor <;> apply readLine_of_code
  · rw [List.takeWhile_eq_self_iff.2 hline, trimBlanks_lineText]
  · have hcut : (lineText l ++ [' ', ';'] ++ comment).takeWhile (fun c => c != ';') = lineText l ++ [' '] := by
      rw [List.append_assoc, List.takeWhile_append_of_pos hline]
      rfl
    rw [hcut, trimBlanks_concat_blank (by decide), trimBlanks_lineText]

end Sys2Proof.Machine
end

section
/-! The pulse width (40_angle_to_pulse.md): the clamp, the formula as a slope with its steps, and the responses of `A2P`
that follow from it. -/

namespace Sys2Proof.Machine

open Sys2Proof

theorem exec_a2p (a b : Word) (s : State) : exec (.a2p a b) s = .next (s.respond (a2p a.toNat)) :=
  execA2p_eq a b s

theorem exec_a2d (a b : Word) (s : State) :
    exec (.a2d a b) s = .next (s.respond (a2d a.toNat b.toNat)) :=
  execA2d_eq a b s

/-- A step at a settled word with op code 0 responds with the pulse width of the word's `a`. -/
theorem step_op0 {s : State} {w : CmdWord} (hcmd : s.cmd = some w) (hop : cmdOp w = 0) :
    step s = .next (s.respond (a2p (cmdA w).toNat)) := by
  rw [step_settled hcmd, serve_eq, if_pos hop]

/-- Settles O8: responding with the model's `a2p` writes the formula of R40 to the response port only. -/
theorem a2pGivesThePulseWidth : Obligations.A2pGivesThePulseWidth :=
  ⟨exec_a2p, fun _ _ => step_op0⟩

/-- The pulse width looks at the clamped angle only (R41). -/
theorem a2p_min (angle : Nat) : a2p (min angle 180) = a2p angle := by
  rw [a2p_eq, a2p_eq, Nat.min_assoc, Nat.min_self]

/-- So does the duty value, whose first stage is the pulse width. -/
theorem a2d_min (angle maxDuty : Nat) : a2d (min angle 180) maxDuty = a2d angle maxDuty := by
  rw [a2d_eq_quotient, a2d_eq_quotient, a2p_min]

/-- A clamped angle fits the operand field. -/
theorem toNat_ofNat_min (angle : Nat) : (BitVec.ofNat 32 (min angle 180)).toNat = min angle 180 :=
  zext32_toNat (by omega)

theorem exec_a2p_clamped (a b : Word) (s : State) :
    exec (.a2p (BitVec.ofNat 32 (min a.toNat 180)) b) s = exec (.a2p a b) s := by
  rw [exec_a2p, exec_a2p, toNat_ofNat_min, a2p_min]

theorem exec_a2d_clamped (a m : Word) (s : State) :
    exec (.a2d (BitVec.ofNat 32 (min a.toNat 180)) m) s = exec (.a2d a m) s := by
  rw [exec_a2d, exec_a2d, toNat_ofNat_min, a2d_min]

/-- Settles O16: the angle and its clamped value give one result, and 180 is the clamped value of 200. -/
theorem clampPrecedesMultiplication : Obligations.ClampPrecedesMultiplication := by
  refine ⟨fun a b s => ⟨_, exec_a2p a b s, ?_⟩, fun a m s => ⟨_, exec_a2d a m s, ?_⟩,
    fun m s => ⟨_, exec_a2d 200 m s, ?_⟩, fun a => ?_⟩
  · rw [exec_a2p_clamped, exec_a2p]
  · rw [exec_a2d_clamped, exec_a2d]
  · exact (exec_a2d_clamped 200 m s).trans (exec_a2d 200 m s)
  · omega

/-- The lower end of the pulse width (R42). -/
theorem le_a2p (angle : Nat) : 500 ≤ a2p angle :=
  (a2p_brackets_product angle).1

/-- From the clamp up the pulse width is constant (R43). -/
theorem a2p_of_ge {angle : Nat} (h : 180 ≤ angle) : a2p angle = 2500 := by
  rw [a2p_eq, Nat.min_eq_right h]

/-- Settles O17: the two bounds of the pulse width, and its values at both ends. -/
theorem pulseWidthRange : Obligations.PulseWidthRange := by
  intro a b
  refine ⟨zext32 (a2p a.toNat), (answers_a2p a b _).2 rfl, ?_⟩
  rw [zext32_a2p_toNat]
  exact ⟨le_a2p _, a2p_le _, fun hzero => by rw [hzero]; rfl, a2p_of_ge⟩

/-- Up to the clamp the slope is `2000/180 = 100/9` (R44). -/
theorem a2p_of_le {angle : Nat} (h : angle ≤ 180) : a2p angle = 500 + 100 * angle / 9 := by
  rw [a2p_eq, Nat.min_eq_left h]
  omega

/-- The slope's whole part and its ninths apart (R44). -/
theorem a2p_eq_add_ninths {angle : Nat} (h : angle ≤ 180) :
    a2p angle = 500 + 11 * angle + angle / 9 := by
  rw [a2p_of_le h]
  omega

/-- Settles O19: the two forms of the slope; what the second one truncates is nothing exactly at multiples of 9. -/
theorem pulseWidthClosedForm : Obligations.PulseWidthClosedForm := by
  intro a b ha
  refine ⟨zext32 (a2p a.toNat), (answers_a2p a b _).2 rfl, ?_⟩
  rw [zext32_a2p_toNat]
  have hninths := a2p_eq_add_ninths ha
  exact ⟨a2p_of_le ha, hninths, by omega⟩

/-- A step of one degree adds the 11 of the slope, and one more where the ninths reach a whole (R43). -/
theorem a2p_succ {angle : Nat} (h : angle + 1 ≤ 180) :
    a2p (angle + 1) = a2p angle + (if (angle + 1) % 9 = 0 then 12 else 11) := by
  rw [a2p_eq_add_ninths h, a2p_eq_add_ninths (by omega)]
  split <;> omega

/-- Up to the clamp the pulse width rises strictly (R43). -/
theorem a2p_lt {angle₁ angle₂ : Nat} (hlt : angle₁ < angle₂) (h : angle₂ ≤ 180) :
    a2p angle₁ < a2p angle₂ := by
  rw [a2p_eq_add_ninths h, a2p_eq_add_ninths (by omega)]
  omega

/-- The pulse width never falls (R43): it rises up to the clamp, and has its largest value from there. -/
theorem a2p_mono {angle₁ angle₂ : Nat} (hle : angle₁ ≤ angle₂) : a2p angle₁ ≤ a2p angle₂ := by
  rcases Nat.le_total angle₂ 180 with h | h
  · rcases Nat.eq_or_lt_of_le hle with rfl | hlt
    · exact Nat.le_refl _
    · exact Nat.le_of_lt (a2p_lt hlt h)
  · rw [a2p_of_ge h]
    exact a2p_le _

/-- Settles O18: the pulse width is monotone, strictly up to the clamp by the steps of its slope, and constant after
it. -/
theorem pulseWidthMonotone : Obligations.PulseWidthMonotone := by
  intro a₁ a₂ b₁ b₂ hle
  refine ⟨zext32 (a2p a₁.toNat), zext32 (a2p a₂.toNat),
    (answers_a2p a₁ b₁ _).2 rfl, (answers_a2p a₂ b₂ _).2 rfl, ?_⟩
  rw [zext32_a2p_toNat, zext32_a2p_toNat]
  refine ⟨a2p_mono hle, a2p_lt, fun hsucc h180 => ?_, fun h180 => ?_⟩
  · rw [hsucc] at h180 ⊢
    exact a2p_succ h180
  · rw [a2p_of_ge h180, a2p_of_ge (h180.trans hle)]

end Sys2Proof.Machine
end

section
/-! The fixed-width datapaths of `A2P` and `A2D` (40_angle_to_pulse.md R40, 41_angle_to_duty.md R53): no stage exceeds its
width, so each computes the model's number. -/

namespace Sys2Proof.Machine

open Sys2Proof

/-- A result from a datapath is the response's result when it is the same number. -/
theorem eq_zext32_of_toNat_eq {x : Word} {v : Nat} (h : x.toNat = v) : x = zext32 v := by
  rw [← h, zext32, BitVec.ofNat_toNat, BitVec.setWidth_eq]

/-- The clamped angle fits 8 bits. -/
theorem clampedAngle_toNat (a : Word) :
    (if a ≤ 180#32 then a.setWidth 8 else 180#8).toNat = min a.toNat 180 := by
  have hle : a ≤ 180#32 ↔ a.toNat ≤ 180 := BitVec.le_def
  split
  case isTrue h =>
    have := hle.1 h
    rw [BitVec.toNat_setWidth]
    omega
  case isFalse h =>
    exact (Nat.min_eq_right (Nat.le_of_not_le (mt hle.2 h))).symm

/-- The widths of R40 hold the product of a clamped angle (19 bits), its quotient (11 bits) and the sum (12 bits). -/
theorem pulseStages_toNat {angle : BitVec 8} (h : angle.toNat ≤ 180) :
    (500#12 + ((angle.setWidth 19 * 2000#19 / 180#19).setWidth 11).setWidth 12).toNat =
      500 + angle.toNat * 2000 / 180 := by
  have hprod : (angle.setWidth 19 * 2000#19).toNat = angle.toNat * 2000 := by
    rw [BitVec.toNat_mul, BitVec.toNat_setWidth_of_le (by decide)]
    exact Nat.mod_eq_of_lt (show angle.toNat * 2000 < 2 ^ 19 by omega)
  have hquot : ((angle.setWidth 19 * 2000#19 / 180#19).setWidth 11).toNat =
      angle.toNat * 2000 / 180 := by
    rw [BitVec.toNat_setWidth, BitVec.toNat_udiv, hprod]
    exact Nat.mod_eq_of_lt (show angle.toNat * 2000 / 180 < 2 ^ 11 by omega)
  rw [BitVec.toNat_add, BitVec.toNat_setWidth_of_le (by decide), hquot]
  exact Nat.mod_eq_of_lt (show 500 + angle.toNat * 2000 / 180 < 2 ^ 12 by omega)

/-- The datapath of R40 computes the pulse width. -/
theorem a2pDatapath_toNat (a : Word) : (a2pDatapath a).toNat = a2p a.toNat := by
  have hangle := clampedAngle_toNat a
  rw [a2p_eq, ← hangle]
  exact pulseStages_toNat (hangle.trans_le (Nat.min_le_right _ _))

/-- A 12-bit pulse width and a 32-bit resolution have a 44-bit product (R53). -/
theorem dutyProduct_toNat (p : BitVec 12) (b : Word) :
    (p.setWidth 44 * b.setWidth 44).toNat = p.toNat * b.toNat := by
  have hlt : p.toNat * b.toNat < 2 ^ 12 * 2 ^ 32 := Nat.mul_lt_mul'' p.isLt b.isLt
  rw [BitVec.toNat_mul, BitVec.toNat_setWidth_of_le (by decide), BitVec.toNat_setWidth_of_le (by decide)]
  exact Nat.mod_eq_of_lt hlt

/-- The product of R53 divided by the period and saturated at the resolution is the duty value. -/
theorem a2dDatapath_toNat (a b : Word) : (a2dDatapath a b).toNat = a2d a.toNat b.toNat := by
  have hduty : ((a2pDatapath a).setWidth 44 * b.setWidth 44 / 20000#44).toNat =
      a2p a.toNat * b.toNat / 20000 := by
    rw [BitVec.toNat_udiv, dutyProduct_toNat, a2pDatapath_toNat]
    rfl
  have hb : (b.setWidth 44).toNat = b.toNat := BitVec.toNat_setWidth_of_le (by decide)
  simp only [a2dDatapath, BitVec.le_def, hduty, hb, a2d_eq, ← a2p_eq]
  split
  case isTrue h =>
    rw [BitVec.toNat_setWidth, hduty, Nat.min_eq_left h]
    exact Nat.mod_eq_of_lt (Nat.lt_of_le_of_lt h b.isLt)
  case isFalse h =>
    exact (Nat.min_eq_right (Nat.le_of_not_le h)).symm

/-- Settles O27: each datapath's word is the number that the operation responds with. -/
theorem forwardDatapathsAreExact : Obligations.ForwardDatapathsAreExact := by
  intro a b
  have hpulse : ((a2pDatapath a).setWidth 32).toNat = a2p a.toNat := by
    rw [BitVec.toNat_setWidth_of_le (by decide), a2pDatapath_toNat]
  exact ⟨(answers_a2p a b _).2 (congrArg (rspPack 0) (eq_zext32_of_toNat_eq hpulse)),
    (answers_a2d a b _).2 (congrArg (rspPack 0) (eq_zext32_of_toNat_eq (a2dDatapath_toNat a b)))⟩

end Sys2Proof.Machine
end

section
/-! The duty value (41_angle_to_duty.md): it never falls as an operand rises, so it stands between its values at the two
ends of the angle; and the single-division formulas that differ from it and from its inverse. -/

namespace Sys2Proof.Machine

open Sys2Proof

/-- A step at a settled word with op code 1 responds with the duty value of the word's operands. -/
theorem step_op1 {s : State} {w : CmdWord} (hcmd : s.cmd = some w) (hop : cmdOp w = 1) :
    step s = .next (s.respond (a2d (cmdA w).toNat (cmdB w).toNat)) := by
  rw [step_settled hcmd, serve_eq, hop, if_neg (by decide), if_pos rfl]

/-- Settles O9: responding with the model's `a2d` writes the formula of R50 to the response port only. -/
theorem a2dGivesTheDutyValue : Obligations.A2dGivesTheDutyValue :=
  ⟨exec_a2d, fun _ _ => step_op1⟩

/-- The duty value never falls (R52): the pulse width does not, and truncating keeps the order of the products. -/
theorem a2d_mono {angle₁ angle₂ maxDuty₁ maxDuty₂ : Nat} (hangle : angle₁ ≤ angle₂)
    (hduty : maxDuty₁ ≤ maxDuty₂) : a2d angle₁ maxDuty₁ ≤ a2d angle₂ maxDuty₂ := by
  rw [a2d_eq_quotient, a2d_eq_quotient]
  exact Nat.div_le_div_right (Nat.mul_le_mul (a2p_mono hangle) hduty)

/-- Settles O21: the two responses are the model's duty values. -/
theorem dutyValueMonotone : Obligations.DutyValueMonotone := by
  intro a₁ a₂ b₁ b₂ ha hb
  refine ⟨zext32 (a2d a₁.toNat b₁.toNat), zext32 (a2d a₂.toNat b₂.toNat),
    (answers_a2d a₁ b₁ _).2 rfl, (answers_a2d a₂ b₂ _).2 rfl, ?_⟩
  rw [zext32_a2d_toNat, zext32_a2d_toNat]
  exact a2d_mono ha hb

/-- At angle 0 the pulse is a fortieth of the period. -/
theorem a2d_zero (maxDuty : Nat) : a2d 0 maxDuty = maxDuty / 40 := by
  have hpulse : a2p 0 = 500 := rfl
  rw [a2d_eq_quotient, hpulse]
  omega

/-- From the clamp up the pulse is an eighth of the period (R51). -/
theorem a2d_of_ge {angle : Nat} (h : 180 ≤ angle) (maxDuty : Nat) :
    a2d angle maxDuty = maxDuty / 8 := by
  rw [a2d_eq_quotient, a2p_of_ge h]
  omega

/-- The lower end of the duty value (R52), where the angle is 0. -/
theorem div_forty_le_a2d (angle maxDuty : Nat) : maxDuty / 40 ≤ a2d angle maxDuty := by
  rw [← a2d_zero]
  exact a2d_mono (Nat.zero_le _) (Nat.le_refl _)

/-- The upper end of the duty value (R51), where the angle is clamped. -/
theorem a2d_le_div_eight (angle maxDuty : Nat) : a2d angle maxDuty ≤ maxDuty / 8 := by
  rw [← a2d_of_ge (Nat.le_max_right angle 180)]
  exact a2d_mono (Nat.le_max_left _ _) (Nat.le_refl _)

/-- Settles O20: the saturation does not act, and the duty value lies between its values at the two ends of the
angle. -/
theorem dutyValueRange : Obligations.DutyValueRange := by
  intro a b
  refine ⟨zext32 (a2d a.toNat b.toNat), (answers_a2d a b _).2 rfl, ?_⟩
  rw [zext32_a2d_toNat]
  have hle := a2d_le_div_eight a.toNat b.toNat
  exact ⟨a2d_eq_quotient _ _, div_forty_le_a2d _ _, hle, hle.trans (Nat.div_le_self _ _),
    fun h180 => a2d_of_ge h180 _⟩

/-- Settles O30: the named operands are evaluated, and so is each formula on every angle and duty that the counts
range over. -/
theorem twoTruncationsMustNotBeFolded : Obligations.TwoTruncationsMustNotBeFolded := by
  refine ⟨by decide, by decide, by decide, by decide, ?angles, ?duties⟩
  case angles => decide +kernel
  case duties => decide +kernel

end Sys2Proof.Machine
end

section
/-! The angle (42_duty_to_angle.md): the second stage of `D2A` as a function of the pulse width that the first division
leaves, with its order and its two ends, and the responses of `D2A` that follow from it. -/

namespace Sys2Proof.Machine

open Sys2Proof

theorem exec_d2a {b : Word} (hb : b ≠ 0) (a : Word) (s : State) :
    exec (.d2a a b) s = .next (s.respond (d2a a.toNat b.toNat)) := by
  rw [exec, execD2a_eq, if_neg hb]

theorem exec_d2a_zero (a : Word) (s : State) : exec (.d2a a 0) s = .next (s.raise .divZero) := by
  rw [exec, execD2a_eq, if_pos rfl]

/-- A step at a settled word with op code 2 executes `D2A` on the word's operands. -/
theorem step_op2 {s : State} {w : CmdWord} (hcmd : s.cmd = some w) (hop : cmdOp w = 2) :
    step s = exec (.d2a (cmdA w) (cmdB w)) s :=
  stepRunsTheDecodedInstruction s w _ hcmd (decode_op2 hop)

/-- The fault of R62 in the words of the statements. -/
theorem exec_d2a_zero_faults (a : Word) (s : State) :
    ∃ t, exec (.d2a a 0) s = .next t ∧ rspCause t.rsp = 2 ∧ t.cmd = s.cmd :=
  ⟨_, exec_d2a_zero a s, by rw [raise_rsp, rspCause_rspPack, causeCode_divZero], raise_cmd s _⟩

/-- Settles O10: responding with the model's `d2a` writes the formula of R60 to the response port only, raising
`DIV_ZERO` leaves the command port, and a step does either as `exec` does. -/
theorem d2aGivesTheAngle : Obligations.D2aGivesTheAngle := by
  simp only [Obligations.D2aGivesTheAngle, ← d2a_eq]
  refine ⟨fun a b s hb => exec_d2a hb a s, exec_d2a_zero_faults, fun s w hcmd hop hb => ?_,
    fun s w hcmd hop hb => ?_⟩
  · rw [step_op2 hcmd hop]
    exact exec_d2a hb _ s
  · rw [step_op2 hcmd hop, hb]
    exact exec_d2a_zero_faults _ s

/-- The angle looks at the operands through the truncated pulse width only (R65 (e)). -/
theorem d2a_eq_pulseToAngle (duty maxDuty : Nat) :
    d2a duty maxDuty = pulseToAngle (duty * 20000 / maxDuty) := rfl

/-- The angle is 0 up to a pulse width of 511 (R63). -/
theorem pulseToAngle_eq_zero_iff (p : Nat) : pulseToAngle p = 0 ↔ p < 512 := by
  rw [pulseToAngle_eq]
  omega

/-- The angle is 180 from a pulse width of 2500 up (R63). -/
theorem pulseToAngle_eq_max_iff (p : Nat) : pulseToAngle p = 180 ↔ 2500 ≤ p := by
  rw [pulseToAngle_eq]
  omega

theorem pulseToAngle_mono {p₁ p₂ : Nat} (hle : p₁ ≤ p₂) : pulseToAngle p₁ ≤ pulseToAngle p₂ := by
  rw [pulseToAngle_eq, pulseToAngle_eq]
  omega

/-- A pulse width below the shortest gives angle 0 (R61). -/
theorem d2a_eq_zero_of_lt {duty maxDuty : Nat} (h : duty * 20000 / maxDuty < 500) :
    d2a duty maxDuty = 0 := by
  rw [d2a_eq_pulseToAngle, pulseToAngle_eq_zero_iff]
  omega

theorem answers_d2a_zero {a b : Word} (hb : b ≠ 0) (h : a.toNat * 20000 / b.toNat < 500) :
    Answers (encode (.d2a a b)) (rspPack 0 0) :=
  (answers_d2a hb _).2 (by rw [d2a_eq_zero_of_lt h]; rfl)

/-- Where a fortieth of the resolution is no whole number of ticks, the duty value of angle 0 is less than the shortest
pulse. -/
theorem a2d_zero_pulse_lt {maxDuty : Nat} (h : maxDuty % 40 ≠ 0) :
    a2d 0 maxDuty * 20000 / maxDuty < 500 := by
  rw [a2d_zero]
  exact Nat.div_lt_of_lt_mul (by omega)

/-- Settles O24: 40 divides none of the five resolutions, so the pulse width after angle 0 falls short of 500. -/
theorem lowPulseWidthGivesAngleZero : Obligations.LowPulseWidthGivesAngleZero := by
  refine ⟨fun a b => answers_d2a_zero, fun m hm => ?_⟩
  have hmod : m.toNat % 40 ≠ 0 := by
    simp only [List.mem_cons, List.not_mem_nil, or_false] at hm
    rcases hm with rfl | rfl | rfl | rfl | rfl <;> decide
  have hm0 : m ≠ 0 := fun h0 => hmod (by rw [h0]; rfl)
  have hpulse : (zext32 (a2d 0 m.toNat)).toNat * 20000 / m.toNat < 500 := by
    rw [zext32_a2d_toNat]
    exact a2d_zero_pulse_lt hmod
  exact ⟨zext32 (a2d 0 m.toNat), (answers_a2d 0 m _).2 rfl, hpulse, answers_d2a_zero hm0 hpulse⟩

/-- The upper end in closed form (R63). -/
theorem d2a_eq_max_iff (duty : Nat) {maxDuty : Nat} (h : 0 < maxDuty) :
    d2a duty maxDuty = 180 ↔ 8 * duty ≥ maxDuty := by
  rw [d2a_eq_pulseToAngle, pulseToAngle_eq_max_iff, Nat.le_div_iff_mul_le h]
  omega

/-- The lower end in closed form (R63). -/
theorem d2a_eq_zero_iff (duty : Nat) {maxDuty : Nat} (h : 0 < maxDuty) :
    d2a duty maxDuty = 0 ↔ 625 * duty < 16 * maxDuty := by
  rw [d2a_eq_pulseToAngle, pulseToAngle_eq_zero_iff, Nat.div_lt_iff_lt_mul h]
  omega

/-- Settles O25: the clamp bounds the angle, and each end is a bound on the quotient, cleared of its division. -/
theorem angleEndConditions : Obligations.AngleEndConditions := by
  intro a b hb
  refine ⟨zext32 (d2a a.toNat b.toNat), (answers_d2a hb _).2 rfl, ?_⟩
  rw [zext32_d2a_toNat]
  exact ⟨d2a_le _ _, d2a_eq_max_iff _ (toNat_pos hb), d2a_eq_zero_iff _ (toNat_pos hb)⟩

/-- The angle never falls as the duty rises or the resolution falls (R65 (b), (c)): both divisions keep the order. -/
theorem d2a_mono {duty₁ duty₂ maxDuty₁ maxDuty₂ : Nat} (h : 0 < maxDuty₂) (hduty : duty₁ ≤ duty₂)
    (hmax : maxDuty₂ ≤ maxDuty₁) : d2a duty₁ maxDuty₁ ≤ d2a duty₂ maxDuty₂ :=
  pulseToAngle_mono (Nat.div_le_div (Nat.mul_le_mul_right _ hduty) hmax h.ne')

/-- Settles O26: the two responses are the model's angles, each of its own quotient. -/
theorem angleMonotone : Obligations.AngleMonotone := by
  intro a₁ a₂ b₁ b₂ hb₁ hb₂
  refine ⟨zext32 (d2a a₁.toNat b₁.toNat), zext32 (d2a a₂.toNat b₂.toNat),
    (answers_d2a hb₁ _).2 rfl, (answers_d2a hb₂ _).2 rfl, ?_, fun hquot => ?_⟩
  · rw [zext32_d2a_toNat, zext32_d2a_toNat]
    exact d2a_mono (toNat_pos hb₂)
  · rw [d2a_eq_pulseToAngle, d2a_eq_pulseToAngle, hquot]

end Sys2Proof.Machine
end

section
/-! The fixed-width datapaths of `D2A` (42_duty_to_angle.md R63, R64): the first division fits 47 bits, and from it both
second stages compute the model's angle. -/

namespace Sys2Proof.Machine

open Sys2Proof

/-- The 47 bits of R64 hold the first product. -/
theorem d2aPulseDatapath_toNat (a b : Word) :
    (d2aPulseDatapath a b).toNat = a.toNat * 20000 / b.toNat := by
  have ha := a.isLt
  have hprod : (a.setWidth 47 * 20000#47).toNat = a.toNat * 20000 := by
    rw [BitVec.toNat_mul, BitVec.toNat_setWidth_of_le (by decide)]
    exact Nat.mod_eq_of_lt (show a.toNat * 20000 < 2 ^ 47 by omega)
  rw [d2aPulseDatapath, BitVec.toNat_udiv, hprod, BitVec.toNat_setWidth_of_le (by decide)]

/-- The saturating subtraction of R61 on 55 bits. -/
theorem saturatedPulse_toNat (p : BitVec 55) :
    (if 500#55 ≤ p then p - 500#55 else 0#55).toNat = p.toNat - 500 := by
  have hle : 500#55 ≤ p ↔ 500 ≤ p.toNat := BitVec.le_def
  split
  case isTrue h => exact BitVec.toNat_sub_of_le h
  case isFalse h => exact (Nat.sub_eq_zero_of_le (Nat.le_of_not_le (mt hle.2 h))).symm

/-- The final clamp of R63 on 55 bits. -/
theorem clampedQuotient_toNat (q : BitVec 55) :
    (if q ≤ 180#55 then q.setWidth 32 else 180#32).toNat = min q.toNat 180 := by
  have hle : q ≤ 180#55 ↔ q.toNat ≤ 180 := BitVec.le_def
  split
  case isTrue h =>
    have := hle.1 h
    rw [BitVec.toNat_setWidth]
    omega
  case isFalse h => exact (Nat.min_eq_right (Nat.le_of_not_le (mt hle.2 h))).symm

/-- The 55 bits of R64 hold the second product of a difference of 47 bits. -/
theorem wideQuotient_toNat {t : BitVec 55} (h : t.toNat < 2 ^ 47) :
    (t * 180#55 / 2000#55).toNat = t.toNat * 180 / 2000 := by
  have hprod : (t * 180#55).toNat = t.toNat * 180 := by
    rw [BitVec.toNat_mul]
    exact Nat.mod_eq_of_lt (show t.toNat * 180 < 2 ^ 55 by omega)
  rw [BitVec.toNat_udiv, hprod]
  rfl

/-- The datapath with the 55-bit second stage computes the angle. -/
theorem d2aWideDatapath_toNat (a b : Word) : (d2aWideDatapath a b).toNat = d2a a.toNat b.toNat := by
  have hpulse : ((d2aPulseDatapath a b).setWidth 55).toNat = a.toNat * 20000 / b.toNat := by
    rw [BitVec.toNat_setWidth_of_le (by decide), d2aPulseDatapath_toNat]
  have ht := saturatedPulse_toNat ((d2aPulseDatapath a b).setWidth 55)
  have hfits : a.toNat * 20000 / b.toNat < 2 ^ 47 :=
    d2aPulseDatapath_toNat a b ▸ (d2aPulseDatapath a b).isLt
  rw [hpulse] at ht
  rw [d2aWideDatapath, clampedQuotient_toNat, wideQuotient_toNat (by omega), ht, d2a_eq]

/-- The early clamp of R63 leaves a pulse width that fits 12 bits. -/
theorem earlyClamp_toNat (p : BitVec 47) :
    (if p ≤ 500#47 then 500#12 else if 2500#47 ≤ p then 2500#12 else p.setWidth 12).toNat =
      max 500 (min p.toNat 2500) := by
  have hlow : p ≤ 500#47 ↔ p.toNat ≤ 500 := BitVec.le_def
  have hhigh : 2500#47 ≤ p ↔ 2500 ≤ p.toNat := BitVec.le_def
  simp only [hlow, hhigh]
  split
  case isTrue h => exact (Nat.max_eq_left ((Nat.min_le_left _ _).trans h)).symm
  case isFalse h =>
    split
    case isTrue h' => rw [Nat.min_eq_right h']; rfl
    case isFalse h' =>
      rw [BitVec.toNat_setWidth]
      omega

/-- Nineteen bits hold the second product of a clamped pulse width (R63). -/
theorem clampedStages_toNat {c : BitVec 12} (hlow : 500 ≤ c.toNat) (hhigh : c.toNat ≤ 2500) :
    (((c - 500#12).setWidth 19 * 180#19 / 2000#19).setWidth 32).toNat =
      (c.toNat - 500) * 180 / 2000 := by
  have hdiff : (c - 500#12).toNat = c.toNat - 500 := BitVec.toNat_sub_of_le (BitVec.le_def.2 hlow)
  have hprod : ((c - 500#12).setWidth 19 * 180#19).toNat = (c.toNat - 500) * 180 := by
    rw [BitVec.toNat_mul, BitVec.toNat_setWidth_of_le (by decide), hdiff]
    exact Nat.mod_eq_of_lt (show (c.toNat - 500) * 180 < 2 ^ 19 by omega)
  rw [BitVec.toNat_setWidth_of_le (by decide), BitVec.toNat_udiv, hprod]
  rfl

/-- Clamping the pulse width early does the work of both clamps of the second stage (R63). -/
theorem pulseToAngle_eq_earlyClamp (p : Nat) :
    pulseToAngle p = (max 500 (min p 2500) - 500) * 180 / 2000 := by
  rw [pulseToAngle_eq]
  omega

/-- The datapath with the early clamp computes the angle. -/
theorem d2aEarlyClampDatapath_toNat (a b : Word) :
    (d2aEarlyClampDatapath a b).toNat = d2a a.toNat b.toNat := by
  have hclamp := earlyClamp_toNat (d2aPulseDatapath a b)
  rw [d2aEarlyClampDatapath, clampedStages_toNat (by omega) (by omega), hclamp,
    d2aPulseDatapath_toNat, d2a_eq_pulseToAngle, pulseToAngle_eq_earlyClamp]

/-- Settles O28: each datapath's word is the number that the operation responds with. -/
theorem inverseDatapathsAreExact : Obligations.InverseDatapathsAreExact := fun a b hb =>
  ⟨(answers_d2a hb _).2 (congrArg (rspPack 0) (eq_zext32_of_toNat_eq (d2aWideDatapath_toNat a b))),
    (answers_d2a hb _).2
      (congrArg (rspPack 0) (eq_zext32_of_toNat_eq (d2aEarlyClampDatapath_toNat a b)))⟩

end Sys2Proof.Machine
end

section
/-! The roundtrip (42_duty_to_angle.md R67): the pulse width comes back no larger, and short by at most a tick's width,
which the slope of the angle turns into degrees. -/

namespace Sys2Proof.Machine

open Sys2Proof

/-- The pulse width read back from a duty value is at most the one it was made from. -/
theorem roundtripPulse_le (angle maxDuty : Nat) :
    a2d angle maxDuty * 20000 / maxDuty ≤ a2p angle :=
  Nat.div_le_of_le_mul
    ((a2d_brackets_product angle maxDuty).1.trans_eq (Nat.mul_comm _ _))

/-- It falls short by at most `k` microseconds where a tick is at most `k` microseconds. -/
theorem le_roundtripPulse_add (angle : Nat) {maxDuty k : Nat} (h : 0 < maxDuty)
    (htick : 20000 ≤ k * maxDuty) :
    a2p angle ≤ a2d angle maxDuty * 20000 / maxDuty + k := by
  have hduty := (a2d_brackets_product angle maxDuty).2
  have hpulse := Nat.lt_mul_div_succ (a2d angle maxDuty * 20000) h
  generalize a2d angle maxDuty * 20000 / maxDuty = p at hpulse ⊢
  have hlt : a2p angle * maxDuty < (p + k + 1) * maxDuty :=
    calc a2p angle * maxDuty
        < a2d angle maxDuty * 20000 + 20000 := by omega
      _ ≤ a2d angle maxDuty * 20000 + k * maxDuty := Nat.add_le_add_left htick _
      _ < maxDuty * (p + 1) + k * maxDuty := Nat.add_lt_add_right hpulse _
      _ = (p + k + 1) * maxDuty := by ring
  exact Nat.le_of_lt_succ (Nat.lt_of_mul_lt_mul_right hlt)

/-- The second stage of `D2A` gives no more than the angle that a pulse width was made from. -/
theorem pulseToAngle_a2p_le {angle : Nat} (h : angle ≤ 180) : pulseToAngle (a2p angle) ≤ angle := by
  rw [pulseToAngle_eq, a2p_of_le h]
  omega

/-- A pulse width short by `k` costs `9k/100` degrees, beside the `8/100` that truncating the slope can. -/
theorem le_pulseToAngle_add {angle p k n : Nat} (h : angle ≤ 180) (hp : a2p angle ≤ p + k)
    (hk : 9 * k + 8 ≤ 100 * n) : angle ≤ pulseToAngle p + n := by
  rw [a2p_of_le h] at hp
  rw [pulseToAngle_eq]
  omega

/-- The roundtrip never returns more than it was given. -/
theorem roundtrip_le {angle : Nat} (h : angle ≤ 180) (maxDuty : Nat) :
    d2a (a2d angle maxDuty) maxDuty ≤ angle :=
  (pulseToAngle_mono (roundtripPulse_le angle maxDuty)).trans (pulseToAngle_a2p_le h)

/-- The roundtrip loses at most 2 degrees from resolution 1024 up, where a tick is below 20 microseconds. -/
theorem le_roundtrip_add_two {angle maxDuty : Nat} (hangle : angle ≤ 180) (h : 1024 ≤ maxDuty) :
    angle ≤ d2a (a2d angle maxDuty) maxDuty + 2 :=
  le_pulseToAngle_add hangle (le_roundtripPulse_add angle (k := 20) (by omega) (by omega)) (by decide)

/-- It loses at most 1 degree from resolution 4096 up, where a tick is below 5 microseconds. -/
theorem le_roundtrip_add_one {angle maxDuty : Nat} (hangle : angle ≤ 180) (h : 4096 ≤ maxDuty) :
    angle ≤ d2a (a2d angle maxDuty) maxDuty + 1 :=
  le_pulseToAngle_add hangle (le_roundtripPulse_add angle (k := 5) (by omega) (by omega)) (by decide)

/-- At resolution 256 a tick is above 78 microseconds, and the bound by ticks would be 8 degrees: that 7 suffices is
seen by evaluating the nominal angles, as R67 does. -/
theorem le_roundtrip_256_add_seven {angle : Nat} (h : angle ≤ 180) :
    angle ≤ d2a (a2d angle 256) 256 + 7 := by
  have hall : ∀ k < 181, k ≤ d2a (a2d k 256) 256 + 7 := by decide +kernel
  exact hall angle (by omega)

/-- Settles O31: both responses are the model's, and the bounds are those of the model's roundtrip. -/
theorem roundtripLosesLittle : Obligations.RoundtripLosesLittle := by
  intro a m ha hm
  refine ⟨zext32 (a2d a.toNat m.toNat), zext32 (d2a (a2d a.toNat m.toNat) m.toNat),
    (answers_a2d a m _).2 rfl, (answers_d2a hm _).2 (by rw [zext32_a2d_toNat]), ?_⟩
  rw [zext32_d2a_toNat]
  refine ⟨roundtrip_le ha _, le_roundtrip_add_two ha, le_roundtrip_add_one ha, ?_⟩
  rintro rfl
  exact le_roundtrip_256_add_seven ha

/-- Settles O32: the two named transactions are evaluated, and so is the roundtrip on the angles that the claims range
over. -/
theorem roundtripToleranceFailsAt256 : Obligations.RoundtripToleranceFailsAt256 := by
  refine ⟨(answers_a2d 11 256 _).2 (by decide),
    (answers_d2a (by decide) _).2 (by decide), ?first, ?count⟩
  case first => decide
  case count => decide +kernel

end Sys2Proof.Machine
end

section
/-! The causes of a response (60_exceptions.md): which settled word gets which cause, that the operations' clamped,
saturated and truncated results are no faults, and that a fault leaves nothing behind. -/

namespace Sys2Proof.Machine

open Sys2Proof

/-- The cause of a step's response, by the word on the command port (R72, R73, R74). -/
theorem step_cause_cases {s t : State} {w : CmdWord} (hcmd : s.cmd = some w) (hstep : step s = .next t) :
    (rspCause t.rsp = 0 ∧ cmdOp w ≠ 3 ∧ ¬(cmdOp w = 2 ∧ cmdB w = 0)) ∨
    (rspCause t.rsp = 1 ∧ cmdOp w = 3) ∨
    (rspCause t.rsp = 2 ∧ cmdOp w = 2 ∧ cmdB w = 0) := by
  obtain ⟨hA2p, hA2d, hD2a, hDivZero, hReserved⟩ := step_conforms hcmd hstep
  rcases opCode_cases (cmdOp w) with hop | hop | hop | hop
  · exact .inl ⟨(hA2p hop).1, by simp [hop], by simp [hop]⟩
  · exact .inl ⟨(hA2d hop).1, by simp [hop], by simp [hop]⟩
  · by_cases hb : cmdB w = 0
    · exact .inr (.inr ⟨hDivZero hop (by rw [hb]; rfl), hop, hb⟩)
    · exact .inl ⟨(hD2a hop (toNat_pos hb).ne').1, by simp [hop], fun hdiv => hb hdiv.2⟩
  · exact .inr (.inl ⟨hReserved hop, hop⟩)

/-- Cause 3 is never produced (R70). -/
theorem step_cause {s t : State} {w : CmdWord} (hcmd : s.cmd = some w) (hstep : step s = .next t) :
    rspCause t.rsp = 0 ∨ rspCause t.rsp = 1 ∨ rspCause t.rsp = 2 :=
  (step_cause_cases hcmd hstep).imp And.left (Or.imp And.left And.left)

theorem step_cause_eq_one_iff {s t : State} {w : CmdWord} (hcmd : s.cmd = some w)
    (hstep : step s = .next t) : rspCause t.rsp = 1 ↔ cmdOp w = 3 := by
  rcases step_cause_cases hcmd hstep with ⟨hcause, hop, -⟩ | ⟨hcause, hop⟩ | ⟨hcause, hop, -⟩
  · simpa [hcause] using hop
  · simp [hcause, hop]
  · simp [hcause, hop]

theorem step_cause_eq_two_iff {s t : State} {w : CmdWord} (hcmd : s.cmd = some w)
    (hstep : step s = .next t) : rspCause t.rsp = 2 ↔ cmdOp w = 2 ∧ cmdB w = 0 := by
  rcases step_cause_cases hcmd hstep with ⟨hcause, -, hdiv⟩ | ⟨hcause, hop⟩ | ⟨hcause, hdiv⟩
  · simpa [hcause] using hdiv
  · simp [hcause, hop]
  · simp [hcause, hdiv]

/-- Settles O11: the step answers, with the cause of its word, and no step changes the command port. -/
theorem reservedOpGivesIllegalOp : Obligations.ReservedOpGivesIllegalOp := by
  intro s w hcmd hop
  obtain ⟨t, hstep⟩ := exists_step_eq_next s
  exact ⟨t, hstep, (step_cause_eq_one_iff hcmd hstep).2 hop, step_cmd hstep⟩

/-- Settles O13: the step answers, and the word fixes the cause of what it answers. -/
theorem causeOfEveryResponse : Obligations.CauseOfEveryResponse := by
  intro s w
  obtain ⟨t, hstep⟩ := exists_step_eq_next { s with cmd := some w }
  exact ⟨t, hstep, step_cause rfl hstep, step_cause_eq_one_iff rfl hstep, step_cause_eq_two_iff rfl hstep⟩

/-- Settles O15: the faulting step leaves the command port, and whatever else it leaves, the answer to the next word
does not depend on it. -/
theorem faultLeavesNoTrace : Obligations.FaultLeavesNoTrace := by
  intro s t v hcmd hstep hfault
  refine ⟨(step_cause hcmd hstep).resolve_left hfault, step_cmd hstep, fun w => ?_⟩
  obtain ⟨t', s', hstep_t, hstep_s, hcause, hrsp⟩ := responseDependsOnTheCommandWordAlone w t s
  exact ⟨t', s', hstep_t, hstep_s, hcause, fun hok => hrsp (hcause.trans hok)⟩

/-- `A2D` at resolution 0 is duty value 0 (41_angle_to_duty.md R54). -/
theorem a2d_zero_right (angle : Nat) : a2d angle 0 = 0 :=
  Nat.min_zero _

/-- An angle above 180 acts as 180 in the first stage of both `A2P` and `A2D`. -/
theorem a2p_eq_a2p_max {angle : Nat} (h : 180 < angle) : a2p angle = a2p 180 := by
  rw [a2p_of_ge h.le, a2p_of_ge le_rfl]

theorem a2d_eq_a2d_max {angle : Nat} (h : 180 < angle) (maxDuty : Nat) :
    a2d angle maxDuty = a2d 180 maxDuty := by
  rw [a2d_of_ge h.le, a2d_of_ge le_rfl]

/-- A duty above the resolution is clamped to angle 180 (42_duty_to_angle.md R63). -/
theorem d2a_eq_max_of_lt {duty maxDuty : Nat} (hpos : 0 < maxDuty) (h : maxDuty < duty) :
    d2a duty maxDuty = 180 :=
  (d2a_eq_max_iff duty hpos).2 (by omega)

/-- Settles O14: the responses are the model's results, each with cause 0, and the clamps and the saturation decide what
the results are. -/
theorem nothingElseIsAFault : Obligations.NothingElseIsAFault := by
  refine ⟨fun a b => ?a2p, fun a b => ?a2d, fun a b hb => ?d2a⟩
  case a2p =>
    refine ⟨zext32 (a2p a.toNat), (answers_a2p a b _).2 rfl, (answers_a2p a 0 _).2 rfl, fun ha => ?_⟩
    exact (answers_a2p 180 b _).2 (by rw [a2p_eq_a2p_max ha]; rfl)
  case a2d =>
    refine ⟨zext32 (a2d a.toNat b.toNat), (answers_a2d a b _).2 rfl, fun ha => ?_, ?_⟩
    · exact (answers_a2d 180 b _).2 (by rw [a2d_eq_a2d_max ha]; rfl)
    · rintro rfl
      exact congrArg zext32 (a2d_zero_right _)
  case d2a =>
    refine ⟨zext32 (d2a a.toNat b.toNat), (answers_d2a hb _).2 rfl, fun hduty => ?_, fun hpulse => ?_⟩
    · exact congrArg zext32 (d2a_eq_max_of_lt (toNat_pos hb) hduty)
    · exact congrArg zext32 (d2a_eq_zero_of_lt hpulse)

end Sys2Proof.Machine
end

section
/-! What the host gets back (70_reset_and_hazards.md): a free value while nothing has settled on the command port (R80), and
in a run one response for each command word (R88), fault-free exactly when the word keeps the host's duty (R83). -/

namespace Sys2Proof.Machine

open Sys2Proof

/-- Settles O35: a step with no settled command word draws a value for the response port. -/
theorem unsettledPortShowsAnyValue : Obligations.UnsettledPortShowsAnyValue :=
  fun _ => step_unsettled

/-- What holds of each single transaction holds of a run, response by response. -/
theorem forall₂_responses {P : CmdWord → RspWord → Prop}
    (h : ∀ (w : CmdWord) (s t : State), transact w s = .next t → P w t.rsp)
    (ws : List CmdWord) (s : State) : List.Forall₂ P ws (responses ws s) := by
  induction ws generalizing s with
  | nil => exact .nil
  | cons w ws ih =>
    obtain ⟨t, htransact⟩ : ∃ t, transact w s = .next t := exists_step_eq_next (s.present w)
    rw [responses_cons htransact]
    exact .cons (h w s t htransact) (ih t)

/-- Settles O38: each transaction is a step at its own command word, and such a step conforms. -/
theorem everyResponseOfARunConforms : Obligations.EveryResponseOfARunConforms :=
  forall₂_responses fun w s _ => step_conforms (present_cmd s w)

theorem hostDuty_iff (w : CmdWord) :
    hostDuty w = true ↔ cmdOp w ≠ 3 ∧ ¬(cmdOp w = 2 ∧ cmdB w = 0) := by
  simp only [hostDuty, Bool.and_eq_true, decide_eq_true_iff, not_and, ne_eq]

/-- The word on the command port decides whether the response to it carries a fault. -/
theorem faultFree_eq_hostDuty {s t : State} {w : CmdWord} (hcmd : s.cmd = some w)
    (hstep : step s = .next t) : faultFree t.rsp = hostDuty w := by
  rw [Bool.eq_iff_iff, hostDuty_iff, faultFree, decide_eq_true_iff]
  rcases step_cause_cases hcmd hstep with ⟨hcause, hop, hdiv⟩ | ⟨hcause, hop⟩ | ⟨hcause, hdiv⟩
  · exact iff_of_true hcause ⟨hop, hdiv⟩
  · exact iff_of_false (by simp [hcause]) fun hduty => hduty.1 hop
  · exact iff_of_false (by simp [hcause]) fun hduty => hduty.2 hdiv

/-- Settles O40: response by response, the fault field is the duty kept or not. -/
theorem hostDutyDecidesFaults : Obligations.HostDutyDecidesFaults := by
  intro ws s
  have hrun : List.Forall₂ (fun w r => faultFree r = hostDuty w) ws (responses ws s) := by
    refine forall₂_responses (fun w s t htransact => ?_) ws s
    exact faultFree_eq_hostDuty (present_cmd s w) htransact
  rw [← List.forall₂_eq_eq_eq, List.forall₂_map_left_iff, List.forall₂_map_right_iff]
  exact hrun.flip

end Sys2Proof.Machine
end

section
/-! The hazards of width and sign (70_reset_and_hazards.md R85, R86): what an implementation with 32-bit wrapping
intermediates computes, for all operands, as the model's formula with its products taken modulo `2^32`; it agrees with the
hardware where those products fit. -/

namespace Sys2Proof.Machine

open Sys2Proof

/-- A word clamped from above, as the implementations of R86 write it. -/
theorem clampAbove_toNat (x m : Word) : (if x ≤ m then x else m).toNat = min x.toNat m.toNat := by
  rw [apply_ite BitVec.toNat, Nat.min_def]
  rfl

/-- No stage of the pulse width overflows 32 bits (R86, row `A2P`). -/
theorem wrapPulse_toNat (a : Word) :
    (500#32 + (if a ≤ 180#32 then a else 180#32) * 2000#32 / 180#32).toNat = a2p a.toNat := by
  have hclamp : (if a ≤ 180#32 then a else 180#32).toNat = min a.toNat 180 := clampAbove_toNat a 180#32
  have hprod : ((if a ≤ 180#32 then a else 180#32) * 2000#32).toNat = min a.toNat 180 * 2000 := by
    rw [BitVec.toNat_mul, hclamp]
    exact Nat.mod_eq_of_lt (show min a.toNat 180 * 2000 < 2 ^ 32 by omega)
  rw [BitVec.toNat_add, BitVec.toNat_udiv, hprod]
  exact Nat.mod_eq_of_lt (a2p_fits a.toNat)

/-- `A2D` in 32 bits wraps in the second product only. -/
theorem a2dWrap32_toNat (a b : Word) :
    (a2dWrap32 a b).toNat = min (a2p a.toNat * b.toNat % 2 ^ 32 / 20000) b.toNat := by
  rw [a2dWrap32, clampAbove_toNat, BitVec.toNat_udiv, BitVec.toNat_mul, wrapPulse_toNat]
  rfl

/-- The second product of `A2D` fits 32 bits at the resolutions of the envelope, the pulse width being at most 2500. -/
theorem a2dWrap32_toNat_of_le (a : Word) {b : Word} (hb : b.toNat ≤ 1717986) :
    (a2dWrap32 a b).toNat = a2d a.toNat b.toNat := by
  have hprod : a2p a.toNat * b.toNat ≤ 2500 * 1717986 := Nat.mul_le_mul (a2p_le _) hb
  rw [a2dWrap32_toNat, Nat.mod_eq_of_lt (by omega)]
  rfl

/-- At resolution 1717987 the product of a clamped angle is `2^32 + 204`, and 204 is less than a period. -/
theorem a2dWrap32_overflow {a : Word} (ha : 180 ≤ a.toNat) : (a2dWrap32 a 1717987).toNat = 0 := by
  rw [a2dWrap32_toNat, a2p_of_ge ha]
  rfl

/-- The first stage of `D2A` in 32 bits. -/
theorem wrapDutyPulse_toNat (a b : Word) :
    (a * 20000#32 / b).toNat = a.toNat * 20000 % 2 ^ 32 / b.toNat := by
  rw [BitVec.toNat_udiv, BitVec.toNat_mul]
  rfl

/-- The saturating subtraction of 42_duty_to_angle.md R61 on 32 bits. -/
theorem saturatedPulse32_toNat (p : Word) :
    (if 500#32 ≤ p then p - 500#32 else 0#32).toNat = p.toNat - 500 := by
  have hle : 500#32 ≤ p ↔ 500 ≤ p.toNat := BitVec.le_def
  split
  case isTrue h => exact BitVec.toNat_sub_of_le h
  case isFalse h => exact (Nat.sub_eq_zero_of_le (Nat.le_of_not_le (mt hle.2 h))).symm

/-- `D2A` in 32 bits, clamping last, wraps in both products. -/
theorem d2aWrap32_toNat (a b : Word) :
    (d2aWrap32 a b).toNat =
      min ((a.toNat * 20000 % 2 ^ 32 / b.toNat - 500) * 180 % 2 ^ 32 / 2000) 180 := by
  rw [d2aWrap32, clampAbove_toNat, BitVec.toNat_udiv, BitVec.toNat_mul, saturatedPulse32_toNat,
    wrapDutyPulse_toNat]
  rfl

/-- The early clamp of 42_duty_to_angle.md R63 on 32 bits. -/
theorem earlyClamp32_toNat (p : Word) :
    (if p ≤ 500#32 then 500#32 else if 2500#32 ≤ p then 2500#32 else p).toNat =
      max 500 (min p.toNat 2500) := by
  have hlow : p ≤ 500#32 ↔ p.toNat ≤ 500 := BitVec.le_def
  have hhigh : 2500#32 ≤ p ↔ 2500 ≤ p.toNat := BitVec.le_def
  simp only [hlow, hhigh]
  split
  case isTrue h => exact (Nat.max_eq_left ((Nat.min_le_left _ _).trans h)).symm
  case isFalse h =>
    split
    case isTrue h' => rw [Nat.min_eq_right h']; rfl
    case isFalse h' => omega

/-- A clamped pulse width makes the second product fit. -/
theorem clampedStages32_toNat {c : Word} (hlow : 500 ≤ c.toNat) (hhigh : c.toNat ≤ 2500) :
    ((c - 500#32) * 180#32 / 2000#32).toNat = (c.toNat - 500) * 180 / 2000 := by
  have hdiff : (c - 500#32).toNat = c.toNat - 500 := BitVec.toNat_sub_of_le (BitVec.le_def.2 hlow)
  have hprod : ((c - 500#32) * 180#32).toNat = (c.toNat - 500) * 180 := by
    rw [BitVec.toNat_mul, hdiff]
    exact Nat.mod_eq_of_lt (show (c.toNat - 500) * 180 < 2 ^ 32 by omega)
  rw [BitVec.toNat_udiv, hprod]
  rfl

/-- `D2A` in 32 bits with the early clamp wraps in the first product only. -/
theorem d2aWrap32EarlyClamp_toNat (a b : Word) :
    (d2aWrap32EarlyClamp a b).toNat = pulseToAngle (a.toNat * 20000 % 2 ^ 32 / b.toNat) := by
  have hclamp := earlyClamp32_toNat (a * 20000#32 / b)
  rw [d2aWrap32EarlyClamp, clampedStages32_toNat (by omega) (by omega), hclamp, wrapDutyPulse_toNat,
    pulseToAngle_eq_earlyClamp]

/-- The first product of `D2A` fits 32 bits at the duty values of the envelope. -/
theorem dutyProduct_mod {a : Nat} (ha : a ≤ 214748) : a * 20000 % 2 ^ 32 = a * 20000 :=
  Nat.mod_eq_of_lt (by omega)

theorem d2aWrap32EarlyClamp_toNat_of_le {a : Word} (ha : a.toNat ≤ 214748) (b : Word) :
    (d2aWrap32EarlyClamp a b).toNat = d2a a.toNat b.toNat := by
  rw [d2aWrap32EarlyClamp_toNat, dutyProduct_mod ha, d2a_eq_pulseToAngle]

/-- Without the early clamp the pulse width bounds the second product. -/
theorem d2aWrap32_toNat_of_le {a b : Word} (ha : a.toNat ≤ 214748)
    (hpulse : a.toNat * 20000 / b.toNat ≤ 23861429) :
    (d2aWrap32 a b).toNat = d2a a.toNat b.toNat := by
  rw [d2aWrap32_toNat, dutyProduct_mod ha, Nat.mod_eq_of_lt (by omega), d2a_eq]

/-- Settles O29: inside the envelope every product fits, so the 32-bit word is the number that the operation responds with;
at the first overflow of `A2D` the one is 0 and the other an eighth of the resolution. -/
theorem thirtyTwoBitEnvelope : Obligations.ThirtyTwoBitEnvelope := by
  refine ⟨fun a b hb => ?a2d, fun a b hb ha => ?earlyClamp, fun a b hb ha hpulse => ?lastClamp,
    fun a ha hanswers => ?overflow⟩
  case a2d =>
    exact (answers_a2d a b _).2
      (congrArg (rspPack 0) (eq_zext32_of_toNat_eq (a2dWrap32_toNat_of_le a hb)))
  case earlyClamp =>
    exact (answers_d2a hb _).2
      (congrArg (rspPack 0) (eq_zext32_of_toNat_eq (d2aWrap32EarlyClamp_toNat_of_le ha b)))
  case lastClamp =>
    exact (answers_d2a hb _).2
      (congrArg (rspPack 0) (eq_zext32_of_toNat_eq (d2aWrap32_toNat_of_le ha hpulse)))
  case overflow =>
    have hrsp := (answers_a2d a 1717987 _).1 hanswers
    have hzero := a2dWrap32_overflow ha
    rw [← rspY_rspPack 0 (a2dWrap32 a 1717987), hrsp, rspY_rspPack, zext32_a2d_toNat,
      a2d_of_ge ha] at hzero
    exact absurd hzero (by decide)

/-- `A2D` answers an eighth of the resolution for every angle from the clamp up (41_angle_to_duty.md R51). -/
theorem answers_a2d_of_ge {a : Word} (ha : 180 ≤ a.toNat) (b : Word) :
    Answers (encode (.a2d a b)) (rspPack 0 (zext32 (b.toNat / 8))) :=
  (answers_a2d a b _).2 (by rw [a2d_of_ge ha])

/-- Settles O41: the pattern of a negative number is far above the clamp. -/
theorem negativePatternsActAsFullDeflection : Obligations.NegativePatternsActAsFullDeflection := by
  intro a b hneg
  have hpattern : 2 ^ 32 ≤ 2 * a.toNat := BitVec.toInt_neg_iff.1 hneg
  have hclamped : 180 ≤ a.toNat := by omega
  refine ⟨by omega, (answers_a2p a b _).2 ?pulse, zext32 (b.toNat / 8),
    answers_a2d_of_ge hclamped b, answers_a2d_of_ge (by decide) b⟩
  case pulse =>
    rw [a2p_of_ge hclamped]
    rfl

end Sys2Proof.Machine
end

section
/-! The whole next state of the two faults (60_exceptions.md R71), and the source's literal scenarios
(95_test_vectors.md section 1): both ends of the angle, and its middle at each resolution. -/

namespace Sys2Proof.Machine

open Sys2Proof

/-- A step at a settled word with the reserved op code raises `ILLEGAL_OP` (60_exceptions.md R72). -/
theorem step_op3 {s : State} {w : CmdWord} (hcmd : s.cmd = some w) (hop : cmdOp w = 3) :
    step s = .next (s.raise .illegalOp) := by
  rw [step_settled hcmd, serve, decode_op3 hop, serveReserved]

/-- Settles O12: both faults are the model's `raise`, which writes the response port and the draw counter only. -/
theorem faultsDrawAFreshWord : Obligations.FaultsDrawAFreshWord :=
  ⟨exec_d2a_zero, fun _ _ => step_op3⟩

/-- Angle 90 is the middle of the pulse range, 1500 of the period's 20000. -/
theorem a2d_ninety (maxDuty : Nat) : a2d 90 maxDuty = 3 * maxDuty / 40 := by
  have hpulse : a2p 90 = 1500 := rfl
  rw [a2d_eq_quotient, hpulse]
  omega

/-- `A2D` answers a fortieth of the resolution at angle 0 (41_angle_to_duty.md R52). -/
theorem answers_a2d_zero (b : Word) :
    Answers (encode (.a2d 0 b)) (rspPack 0 (zext32 (b.toNat / 40))) :=
  (answers_a2d 0 b _).2 (congrArg (rspPack 0 ∘ zext32) (a2d_zero b.toNat).symm)

theorem answers_a2d_ninety (b : Word) :
    Answers (encode (.a2d 90 b)) (rspPack 0 (zext32 (3 * b.toNat / 40))) :=
  (answers_a2d 90 b _).2 (congrArg (rspPack 0 ∘ zext32) (a2d_ninety b.toNat).symm)

/-- Settles O23: each word is the encoding of its scenario, and each response packs the pulse width, or the fraction
of the resolution that the angle stands for. -/
theorem sourceLiteralScenarios : Obligations.SourceLiteralScenarios := by
  refine ⟨?pulse0, ?pulse90, ?pulse180, ?duty0, ?duty90, ?duty180, ?duty90At256, ?duty90At4096,
    ?duty90At16384, ?duty90At65536⟩
  case pulse0 => exact (answers_a2p 0 0 _).2 rfl
  case pulse90 => exact (answers_a2p 90 0 _).2 rfl
  case pulse180 => exact (answers_a2p 180 0 _).2 rfl
  case duty0 => exact answers_a2d_zero 1024
  case duty90 => exact answers_a2d_ninety 1024
  case duty180 => exact answers_a2d_of_ge (a := 180) (by decide) 1024
  case duty90At256 => exact answers_a2d_ninety 256
  case duty90At4096 => exact answers_a2d_ninety 4096
  case duty90At16384 => exact answers_a2d_ninety 16384
  case duty90At65536 => exact answers_a2d_ninety 65536

end Sys2Proof.Machine
end
